-- ==== Sys2Proof/Word.lean ====
section
/-!
DEFINITION. The word, the register index and the byte of the host's loader, and the reading of a word as a signed number
(spec 00_scope.md R7, R9, R10).
-/

namespace Sys2Proof

/-- A word: the 16-bit unit of registers, memory cells, addresses and the program counter (R7, R9, R14). -/
abbrev Word := BitVec 16

/-- A register index: the 5-bit S or D field of an instruction word, 0 to 31 (R16, R48). -/
abbrev RegIdx := BitVec 5

/-- A byte of the external loader's stream. The engine itself has no byte (R35). -/
abbrev Byte := BitVec 8

end Sys2Proof
end

