-- ==== Sys2Proof/Config.lean ====
section
/-!
DEFINITION. The three implementation parameters the spec leaves open (00_scope.md R8) as types, and the free values:
opaque constants, one for each kind of value the spec does not state.
-/

namespace Sys2Proof

/-- `SHIFT_OOR` (R8a, R76): the result of a shift whose amount has magnitude 16 or more. -/
inductive ShiftOor where
  /-- The shift formulas of R74 hold for every amount (the spec's default). -/
  | full
  /-- The amount is taken mod 16. -/
  | mod16
  /-- An unconstrained 16-bit draw, fresh at each execution. -/
  | any
  deriving DecidableEq, Repr

/-- `UNASSIGNED_POLICY` (R8b, R120, R121): what an unassigned opcode does. -/
inductive UnassignedPolicy where
  /-- The pc advances by 1 and nothing else changes (the spec's default). -/
  | nop
  /-- The step has no meaning: the run is refused. -/
  | refuse
  deriving DecidableEq, Repr

/-- `RESET_CONTENTS` (R8c, R28 to R30): what registers and memory hold after reset. -/
inductive ResetContents where
  /-- Every register and every cell holds 0x0000 (the spec's default). -/
  | zero
  /-- A register or cell that nothing has written since reset has no specified value. -/
  | unspecified
  deriving DecidableEq, Repr

/-- The parameters of R8, fixed for one machine. -/
structure Config where
  shiftOor : ShiftOor
  unassigned : UnassignedPolicy
  resetContents : ResetContents
  deriving DecidableEq, Repr

/-- Free value (log entry 4): the result of an out-of-range shift under `SHIFT_OOR = any` (R76), for the n-th draw.
Every engine reads this one constant: what that leaves open between two engines is in log entry 24. -/
opaque Config.freeShift : Nat → Word

/-- Free value (log entry 5): what a register that nothing has written since reset reads as under
`RESET_CONTENTS = unspecified` (R30), for the n-th draw. Every engine reads this one constant (log entry 24). -/
opaque Config.freeReg : Nat → RegIdx → Word

/-- Free value (log entry 5): what a memory cell that nothing has written since reset reads as under
`RESET_CONTENTS = unspecified` (R30), for the n-th draw and the cell's address. Every engine reads this one constant (log
entry 24). -/
opaque Config.freeCell : Nat → Word → Word

end Sys2Proof
end

