-- ==== Sys2Proof/Machine/Defaults.lean ====
section
/-!
DEFINITION. The values the spec takes by default for the three parameters it leaves open (00_scope.md R8), and what a choice of
them means for unwritten memory and for the free values.
-/

namespace Sys2Proof

/-- What a memory cell that nothing has written holds (R29, R30): 0x0000 under `zero`, no specified value under
`unspecified`. The ONE definition of what an unlisted address of the memory list reads as. -/
def ResetContents.cell : ResetContents → Option Word
  | .zero => some 0x0000#16
  | .unspecified => none

/-- Does the machine draw free values at all: an out-of-range shift under `any` (R76) or a read of unwritten state under
`unspecified` (R30)? -/
def Config.draws (c : Config) : Bool :=
  c.shiftOor = .any || c.resetContents = .unspecified

end Sys2Proof

namespace Sys2Proof.Machine

/-- The spec's defaults (R8; 92_eei_decisions.md D3, D5, D6): `SHIFT_OOR = full`, `UNASSIGNED_POLICY = nop`,
`RESET_CONTENTS = zero`. DESIGN CHOICE (the spec's own), unsafe for claims about other hardware: log entry 3. -/
def defaultConfig : Config where
  shiftOor := .full
  unassigned := .nop
  resetContents := .zero

end Sys2Proof.Machine
end

