-- ==== Sys2Proof/Machine/State.lean ====
section
/-!
DEFINITION. The state of the engine (10_state.md R15 to R31), the reasons a step can stop, and the state after reset.
-/

namespace Sys2Proof.Machine

/-- One 16-bit memory cell at its word address, the smallest unit the memory has (20_memory.md R32, R34).
DESIGN CHOICE, safe: log entry 1. -/
abbrev Cell := Nat × Word

/-- The memory `M` (R15, R32): the cells that differ from what an unlisted address holds (`ResetContents.cell`), addresses
strictly rising. -/
abbrev Memory := List Cell

/-- The canonical form of a memory under the reset contents `rc`: addresses strictly rising and below 65536 (R32), and no
cell listed that holds what an unlisted address holds. -/
abbrev Memory.wf (rc : ResetContents) (m : Memory) : Prop :=
  m.Pairwise (fun c d => c.1 < d.1) ∧ ∀ c ∈ m, c.1 < 65536 ∧ rc.cell ≠ some c.2

/-- The machine's state. The spec's own state is `regs`, `mem` and `pc`, and nothing else (R15); the last three fields are
the MODEL's own (log entries 2, 4 and 5). -/
structure State where
  /-- `r1` to `r31` (R16); `r0` has no slot: it reads 0x0000 and discards writes (R17, R26; log entry 6). -/
  regs : Vector Word 31
  /-- The memory `M` (R32). -/
  mem : Memory
  /-- The program counter (R20). -/
  pc : Word
  /-- The parameters of R8: configuration, not state (R15); no step changes them. DESIGN CHOICE, safe: log entry 2. -/
  cfg : Config
  /-- The index of the next free value. It never moves under the default parameters. DESIGN CHOICE: log entry 4. -/
  draws : Nat
  /-- The registers that nothing has written since reset and that hold no specified value (R30): none under
  `RESET_CONTENTS = zero`. DESIGN CHOICE: log entry 5. -/
  unwritten : List RegIdx
  deriving DecidableEq, Repr

/-- Faults. The hardware raises none: the step has no declared failure (R69) and no exception exists (R122), so this type
has no constructor and no step can fault (log entry 8). -/
inductive Fault where
  deriving DecidableEq, Repr

/-- Refusals: steps the model gives no meaning. -/
inductive Refusal where
  /-- An instruction the model has no meaning for yet. Raised by no arm of `exec` today. Safe: it stops. -/
  | notModelled (mnemonic : String)
  /-- An unassigned opcode under `UNASSIGNED_POLICY = refuse`, to which R121 gives no meaning; raised by the 38 unassigned
  instructions and only under that parameter value. Safe: it stops where the spec says the run is refused. -/
  | unassignedOpcode (op : BitVec 6)
  deriving DecidableEq, Repr

/-- r1 to r31, the registers a reset under `RESET_CONTENTS = unspecified` leaves without a specified value (R28, R30). -/
def writableRegs : List RegIdx := (List.range 31).map fun n => BitVec.ofNat 5 (n + 1)

/-- The machine right after reset under the parameters `c` (R27 to R31, R135): the pc is 0x0000, no memory cell is listed;
the registers hold 0x0000 under `zero` and no specified value under `unspecified`. The draw index starts at 0 in every engine
(DESIGN CHOICE, log entries 4 and 24). -/
def State.resetWith (c : Config) : State where
  regs := Vector.replicate 31 0x0000#16
  mem := []
  pc := 0x0000#16
  cfg := c
  draws := 0
  unwritten := match c.resetContents with
    | .zero => []
    | .unspecified => writableRegs

/-- The machine right after reset, under the spec's default parameters (R8, R31, R135). -/
def State.reset : State := State.resetWith defaultConfig

end Sys2Proof.Machine
end

