-- ==== Sys2Proof/Machine/Flags.lean ====
section
/-!
DEFINITION. The comparator (40_step.md R77). The hardware has no flags and no condition codes (10_state.md R23): no
instruction computes one, and a branch compares two registers directly.
-/

namespace Sys2Proof.Machine

/-- The six comparator functions (R77). -/
inductive Cond where
  | eq
  | ne
  | ltS
  | geS
  | ltU
  | geU
  deriving DecidableEq, Repr

/-- The comparator bit (R77); the first operand is always the destination field's register. -/
def Cond.holds : Cond → Word → Word → Bool
  | .eq, vd, vs => vd = vs
  | .ne, vd, vs => vd ≠ vs
  | .ltS, vd, vs => vd.toInt < vs.toInt
  | .geS, vd, vs => vs.toInt ≤ vd.toInt
  | .ltU, vd, vs => vd.toNat < vs.toNat
  | .geU, vd, vs => vs.toNat ≤ vd.toNat

end Sys2Proof.Machine
end

