-- ==== Sys2Proof/Syntax.lean ====
section
/-!
DEFINITION. The instructions: one constructor per row of spec/opcode_table.json (30_encoding.md R54), operands in the
order of the source form of R62, destination first.
-/

namespace Sys2Proof

/-- The instructions of the opcode map R54. `rd` is the D field, `rs` the S field, `imm` the immediate word, `off` the
JSH offset -512 to 511 (R53, R57); an unassigned opcode keeps its ignored bits [15:6], so that no bit of a word is lost. -/
inductive Instr where
  | add (rd rs : RegIdx)
  | sub (rd rs : RegIdx)
  | and (rd rs : RegIdx)
  | or (rd rs : RegIdx)
  | xor (rd rs : RegIdx)
  | sll (rd rs : RegIdx)
  | srl (rd rs : RegIdx)
  | sra (rd rs : RegIdx)
  | addi (rd rs : RegIdx) (imm : Word)
  | unassigned09 (ignored : BitVec 10)
  | andi (rd rs : RegIdx) (imm : Word)
  | ori (rd rs : RegIdx) (imm : Word)
  | xori (rd rs : RegIdx) (imm : Word)
  | sfti (rd rs : RegIdx) (imm : Word)
  | unassigned14 (ignored : BitVec 10)
  | srai (rd rs : RegIdx) (imm : Word)
  | ld (rd rs : RegIdx)
  | st (rd rs : RegIdx)
  | unassigned18 (ignored : BitVec 10)
  | unassigned19 (ignored : BitVec 10)
  | unassigned20 (ignored : BitVec 10)
  | unassigned21 (ignored : BitVec 10)
  | unassigned22 (ignored : BitVec 10)
  | unassigned23 (ignored : BitVec 10)
  | ldio (rd rs : RegIdx) (imm : Word)
  | stio (rd rs : RegIdx) (imm : Word)
  | unassigned26 (ignored : BitVec 10)
  | unassigned27 (ignored : BitVec 10)
  | unassigned28 (ignored : BitVec 10)
  | unassigned29 (ignored : BitVec 10)
  | unassigned30 (ignored : BitVec 10)
  | unassigned31 (ignored : BitVec 10)
  | unassigned32 (ignored : BitVec 10)
  | unassigned33 (ignored : BitVec 10)
  | unassigned34 (ignored : BitVec 10)
  | unassigned35 (ignored : BitVec 10)
  | unassigned36 (ignored : BitVec 10)
  | unassigned37 (ignored : BitVec 10)
  | unassigned38 (ignored : BitVec 10)
  | unassigned39 (ignored : BitVec 10)
  | jal (rd rs : RegIdx) (imm : Word)
  | jsh (off : Int)
  | beq (rd rs : RegIdx) (imm : Word)
  | bne (rd rs : RegIdx) (imm : Word)
  | blt (rd rs : RegIdx) (imm : Word)
  | bge (rd rs : RegIdx) (imm : Word)
  | bltu (rd rs : RegIdx) (imm : Word)
  | bgeu (rd rs : RegIdx) (imm : Word)
  | unassigned48 (ignored : BitVec 10)
  | unassigned49 (ignored : BitVec 10)
  | unassigned50 (ignored : BitVec 10)
  | unassigned51 (ignored : BitVec 10)
  | unassigned52 (ignored : BitVec 10)
  | unassigned53 (ignored : BitVec 10)
  | unassigned54 (ignored : BitVec 10)
  | unassigned55 (ignored : BitVec 10)
  | unassigned56 (ignored : BitVec 10)
  | unassigned57 (ignored : BitVec 10)
  | unassigned58 (ignored : BitVec 10)
  | unassigned59 (ignored : BitVec 10)
  | unassigned60 (ignored : BitVec 10)
  | unassigned61 (ignored : BitVec 10)
  | unassigned62 (ignored : BitVec 10)
  | unassigned63 (ignored : BitVec 10)
  deriving DecidableEq, Repr

/-- The opcode field OP of an instruction (R48, R54). -/
def Instr.opcode : Instr → BitVec 6
  | .add _ _ => 0#6
  | .sub _ _ => 1#6
  | .and _ _ => 2#6
  | .or _ _ => 3#6
  | .xor _ _ => 4#6
  | .sll _ _ => 5#6
  | .srl _ _ => 6#6
  | .sra _ _ => 7#6
  | .addi _ _ _ => 8#6
  | .unassigned09 _ => 9#6
  | .andi _ _ _ => 10#6
  | .ori _ _ _ => 11#6
  | .xori _ _ _ => 12#6
  | .sfti _ _ _ => 13#6
  | .unassigned14 _ => 14#6
  | .srai _ _ _ => 15#6
  | .ld _ _ => 16#6
  | .st _ _ => 17#6
  | .unassigned18 _ => 18#6
  | .unassigned19 _ => 19#6
  | .unassigned20 _ => 20#6
  | .unassigned21 _ => 21#6
  | .unassigned22 _ => 22#6
  | .unassigned23 _ => 23#6
  | .ldio _ _ _ => 24#6
  | .stio _ _ _ => 25#6
  | .unassigned26 _ => 26#6
  | .unassigned27 _ => 27#6
  | .unassigned28 _ => 28#6
  | .unassigned29 _ => 29#6
  | .unassigned30 _ => 30#6
  | .unassigned31 _ => 31#6
  | .unassigned32 _ => 32#6
  | .unassigned33 _ => 33#6
  | .unassigned34 _ => 34#6
  | .unassigned35 _ => 35#6
  | .unassigned36 _ => 36#6
  | .unassigned37 _ => 37#6
  | .unassigned38 _ => 38#6
  | .unassigned39 _ => 39#6
  | .jal _ _ _ => 40#6
  | .jsh _ => 41#6
  | .beq _ _ _ => 42#6
  | .bne _ _ _ => 43#6
  | .blt _ _ _ => 44#6
  | .bge _ _ _ => 45#6
  | .bltu _ _ _ => 46#6
  | .bgeu _ _ _ => 47#6
  | .unassigned48 _ => 48#6
  | .unassigned49 _ => 49#6
  | .unassigned50 _ => 50#6
  | .unassigned51 _ => 51#6
  | .unassigned52 _ => 52#6
  | .unassigned53 _ => 53#6
  | .unassigned54 _ => 54#6
  | .unassigned55 _ => 55#6
  | .unassigned56 _ => 56#6
  | .unassigned57 _ => 57#6
  | .unassigned58 _ => 58#6
  | .unassigned59 _ => 59#6
  | .unassigned60 _ => 60#6
  | .unassigned61 _ => 61#6
  | .unassigned62 _ => 62#6
  | .unassigned63 _ => 63#6

/-- The immediate word of a two-word instruction (format I of R51), none for a one-word instruction. -/
def Instr.immediate : Instr → Option Word
  | .add _ _ => none
  | .sub _ _ => none
  | .and _ _ => none
  | .or _ _ => none
  | .xor _ _ => none
  | .sll _ _ => none
  | .srl _ _ => none
  | .sra _ _ => none
  | .addi _ _ imm => some imm
  | .unassigned09 _ => none
  | .andi _ _ imm => some imm
  | .ori _ _ imm => some imm
  | .xori _ _ imm => some imm
  | .sfti _ _ imm => some imm
  | .unassigned14 _ => none
  | .srai _ _ imm => some imm
  | .ld _ _ => none
  | .st _ _ => none
  | .unassigned18 _ => none
  | .unassigned19 _ => none
  | .unassigned20 _ => none
  | .unassigned21 _ => none
  | .unassigned22 _ => none
  | .unassigned23 _ => none
  | .ldio _ _ imm => some imm
  | .stio _ _ imm => some imm
  | .unassigned26 _ => none
  | .unassigned27 _ => none
  | .unassigned28 _ => none
  | .unassigned29 _ => none
  | .unassigned30 _ => none
  | .unassigned31 _ => none
  | .unassigned32 _ => none
  | .unassigned33 _ => none
  | .unassigned34 _ => none
  | .unassigned35 _ => none
  | .unassigned36 _ => none
  | .unassigned37 _ => none
  | .unassigned38 _ => none
  | .unassigned39 _ => none
  | .jal _ _ imm => some imm
  | .jsh _ => none
  | .beq _ _ imm => some imm
  | .bne _ _ imm => some imm
  | .blt _ _ imm => some imm
  | .bge _ _ imm => some imm
  | .bltu _ _ imm => some imm
  | .bgeu _ _ imm => some imm
  | .unassigned48 _ => none
  | .unassigned49 _ => none
  | .unassigned50 _ => none
  | .unassigned51 _ => none
  | .unassigned52 _ => none
  | .unassigned53 _ => none
  | .unassigned54 _ => none
  | .unassigned55 _ => none
  | .unassigned56 _ => none
  | .unassigned57 _ => none
  | .unassigned58 _ => none
  | .unassigned59 _ => none
  | .unassigned60 _ => none
  | .unassigned61 _ => none
  | .unassigned62 _ => none
  | .unassigned63 _ => none

/-- The registers whose values an instruction uses (the table of R18, columns "reads x[S]" and "reads x[D]"). -/
def Instr.uses : Instr → List RegIdx
  | .add rd rs | .sub rd rs | .and rd rs | .or rd rs | .xor rd rs | .sll rd rs | .srl rd rs | .sra rd rs => [rs, rd]
  | .addi _ rs _ | .andi _ rs _ | .ori _ rs _ | .xori _ rs _ | .sfti _ rs _ | .srai _ rs _ => [rs]
  | .ld _ rs | .ldio _ rs _ => [rs]
  | .st rd rs | .stio rd rs _ => [rs, rd]
  | .jal _ rs _ => [rs]
  | .jsh _ => []
  | .beq rd rs _ | .bne rd rs _ | .blt rd rs _ | .bge rd rs _ | .bltu rd rs _ | .bgeu rd rs _ => [rs, rd]
  | .unassigned09 _ | .unassigned14 _ | .unassigned18 _ | .unassigned19 _ | .unassigned20 _ | .unassigned21 _
  | .unassigned22 _ | .unassigned23 _ | .unassigned26 _ | .unassigned27 _ | .unassigned28 _ | .unassigned29 _
  | .unassigned30 _ | .unassigned31 _ | .unassigned32 _ | .unassigned33 _ | .unassigned34 _ | .unassigned35 _
  | .unassigned36 _ | .unassigned37 _ | .unassigned38 _ | .unassigned39 _ | .unassigned48 _ | .unassigned49 _
  | .unassigned50 _ | .unassigned51 _ | .unassigned52 _ | .unassigned53 _ | .unassigned54 _ | .unassigned55 _
  | .unassigned56 _ | .unassigned57 _ | .unassigned58 _ | .unassigned59 _ | .unassigned60 _ | .unassigned61 _
  | .unassigned62 _ | .unassigned63 _ => []

/-- The register an instruction writes, if any (the table of R18, column "writes x[D]"). -/
def Instr.target : Instr → Option RegIdx
  | .add rd _ | .sub rd _ | .and rd _ | .or rd _ | .xor rd _ | .sll rd _ | .srl rd _ | .sra rd _ => some rd
  | .addi rd _ _ | .andi rd _ _ | .ori rd _ _ | .xori rd _ _ | .sfti rd _ _ | .srai rd _ _ => some rd
  | .ld rd _ | .ldio rd _ _ => some rd
  | .st _ _ | .stio _ _ _ => none
  | .jal rd _ _ => some rd
  | .jsh _ => none
  | .beq _ _ _ | .bne _ _ _ | .blt _ _ _ | .bge _ _ _ | .bltu _ _ _ | .bgeu _ _ _ => none
  | .unassigned09 _ | .unassigned14 _ | .unassigned18 _ | .unassigned19 _ | .unassigned20 _ | .unassigned21 _
  | .unassigned22 _ | .unassigned23 _ | .unassigned26 _ | .unassigned27 _ | .unassigned28 _ | .unassigned29 _
  | .unassigned30 _ | .unassigned31 _ | .unassigned32 _ | .unassigned33 _ | .unassigned34 _ | .unassigned35 _
  | .unassigned36 _ | .unassigned37 _ | .unassigned38 _ | .unassigned39 _ | .unassigned48 _ | .unassigned49 _
  | .unassigned50 _ | .unassigned51 _ | .unassigned52 _ | .unassigned53 _ | .unassigned54 _ | .unassigned55 _
  | .unassigned56 _ | .unassigned57 _ | .unassigned58 _ | .unassigned59 _ | .unassigned60 _ | .unassigned61 _
  | .unassigned62 _ | .unassigned63 _ => none

/-- Is the instruction one of the 38 unassigned opcodes (R54, format U of R51)? -/
def Instr.isUnassigned : Instr → Bool
  | .add _ _ => false
  | .sub _ _ => false
  | .and _ _ => false
  | .or _ _ => false
  | .xor _ _ => false
  | .sll _ _ => false
  | .srl _ _ => false
  | .sra _ _ => false
  | .addi _ _ _ => false
  | .unassigned09 _ => true
  | .andi _ _ _ => false
  | .ori _ _ _ => false
  | .xori _ _ _ => false
  | .sfti _ _ _ => false
  | .unassigned14 _ => true
  | .srai _ _ _ => false
  | .ld _ _ => false
  | .st _ _ => false
  | .unassigned18 _ => true
  | .unassigned19 _ => true
  | .unassigned20 _ => true
  | .unassigned21 _ => true
  | .unassigned22 _ => true
  | .unassigned23 _ => true
  | .ldio _ _ _ => false
  | .stio _ _ _ => false
  | .unassigned26 _ => true
  | .unassigned27 _ => true
  | .unassigned28 _ => true
  | .unassigned29 _ => true
  | .unassigned30 _ => true
  | .unassigned31 _ => true
  | .unassigned32 _ => true
  | .unassigned33 _ => true
  | .unassigned34 _ => true
  | .unassigned35 _ => true
  | .unassigned36 _ => true
  | .unassigned37 _ => true
  | .unassigned38 _ => true
  | .unassigned39 _ => true
  | .jal _ _ _ => false
  | .jsh _ => false
  | .beq _ _ _ => false
  | .bne _ _ _ => false
  | .blt _ _ _ => false
  | .bge _ _ _ => false
  | .bltu _ _ _ => false
  | .bgeu _ _ _ => false
  | .unassigned48 _ => true
  | .unassigned49 _ => true
  | .unassigned50 _ => true
  | .unassigned51 _ => true
  | .unassigned52 _ => true
  | .unassigned53 _ => true
  | .unassigned54 _ => true
  | .unassigned55 _ => true
  | .unassigned56 _ => true
  | .unassigned57 _ => true
  | .unassigned58 _ => true
  | .unassigned59 _ => true
  | .unassigned60 _ => true
  | .unassigned61 _ => true
  | .unassigned62 _ => true
  | .unassigned63 _ => true

end Sys2Proof
end

