-- ==== Sys2Proof/WellFormed.lean ====
section
/-!
DEFINITION. Which instructions an encoding exists for. Register fields and immediates have the widths of their types;
the one operand with a range of its own is JSH's offset (30_encoding.md R53, R57).
-/

namespace Sys2Proof

/-- An instruction is well formed when it has an encoding: JSH's offset is in -512 to 511 (R57); every value of S, D, the
immediate and the ignored bits is legal (R56, R58). -/
def Instr.wellFormed : Instr → Bool
  | .add _ _ => true
  | .sub _ _ => true
  | .and _ _ => true
  | .or _ _ => true
  | .xor _ _ => true
  | .sll _ _ => true
  | .srl _ _ => true
  | .sra _ _ => true
  | .addi _ _ _ => true
  | .unassigned09 _ => true
  | .andi _ _ _ => true
  | .ori _ _ _ => true
  | .xori _ _ _ => true
  | .sfti _ _ _ => true
  | .unassigned14 _ => true
  | .srai _ _ _ => true
  | .ld _ _ => true
  | .st _ _ => true
  | .unassigned18 _ => true
  | .unassigned19 _ => true
  | .unassigned20 _ => true
  | .unassigned21 _ => true
  | .unassigned22 _ => true
  | .unassigned23 _ => true
  | .ldio _ _ _ => true
  | .stio _ _ _ => true
  | .unassigned26 _ => true
  | .unassigned27 _ => true
  | .unassigned28 _ => true
  | .unassigned29 _ => true
  | .unassigned30 _ => true
  | .unassigned31 _ => true
  | .unassigned32 _ => true
  | .unassigned33 _ => true
  | .unassigned34 _ => true
  | .unassigned35 _ => true
  | .unassigned36 _ => true
  | .unassigned37 _ => true
  | .unassigned38 _ => true
  | .unassigned39 _ => true
  | .jal _ _ _ => true
  | .jsh off => decide (-512 ≤ off) && decide (off ≤ 511)
  | .beq _ _ _ => true
  | .bne _ _ _ => true
  | .blt _ _ _ => true
  | .bge _ _ _ => true
  | .bltu _ _ _ => true
  | .bgeu _ _ _ => true
  | .unassigned48 _ => true
  | .unassigned49 _ => true
  | .unassigned50 _ => true
  | .unassigned51 _ => true
  | .unassigned52 _ => true
  | .unassigned53 _ => true
  | .unassigned54 _ => true
  | .unassigned55 _ => true
  | .unassigned56 _ => true
  | .unassigned57 _ => true
  | .unassigned58 _ => true
  | .unassigned59 _ => true
  | .unassigned60 _ => true
  | .unassigned61 _ => true
  | .unassigned62 _ => true
  | .unassigned63 _ => true

end Sys2Proof
end

