-- ==== Sys2Proof/Decode.lean ====
section
/-!
DEFINITION. The decoder (30_encoding.md R48 to R56), total on any words, and after it the encoder (R57).
-/

namespace Sys2Proof

/-- `S := iw[15:11]` (R48). -/
def fieldS (iw : Word) : RegIdx := iw.extractLsb' 11 5

/-- `D := iw[10:6]` (R48). -/
def fieldD (iw : Word) : RegIdx := iw.extractLsb' 6 5

/-- `OP := iw[5:0]` (R48). -/
def fieldOp (iw : Word) : BitVec 6 := iw.extractLsb' 0 6

/-- `OFF := iw[15:6]` = `{S, D}` (R49). -/
def fieldOff (iw : Word) : BitVec 10 := iw.extractLsb' 6 10

/-- The decoder's length signal (R55): does the opcode use the immediate word? -/
def usesImm (op : BitVec 6) : Bool :=
  [8, 10, 11, 12, 13, 15, 24, 25, 40, 42, 43, 44, 45, 46, 47].contains op.toNat

/-- An instruction's length in words (R55). -/
def Instr.length (i : Instr) : Nat := if usesImm i.opcode then 2 else 1

/-- The opcode map (R54): the instruction that OP alone selects, its operands from the fields and the immediate word. Total:
every opcode is exactly one entry (R56). -/
def decodeFields (op : BitVec 6) (rs rd : RegIdx) (off : BitVec 10) (imm : Word) : Instr :=
  match op.toNat with
  | 0 => .add rd rs
  | 1 => .sub rd rs
  | 2 => .and rd rs
  | 3 => .or rd rs
  | 4 => .xor rd rs
  | 5 => .sll rd rs
  | 6 => .srl rd rs
  | 7 => .sra rd rs
  | 8 => .addi rd rs imm
  | 9 => .unassigned09 off
  | 10 => .andi rd rs imm
  | 11 => .ori rd rs imm
  | 12 => .xori rd rs imm
  | 13 => .sfti rd rs imm
  | 14 => .unassigned14 off
  | 15 => .srai rd rs imm
  | 16 => .ld rd rs
  | 17 => .st rd rs
  | 18 => .unassigned18 off
  | 19 => .unassigned19 off
  | 20 => .unassigned20 off
  | 21 => .unassigned21 off
  | 22 => .unassigned22 off
  | 23 => .unassigned23 off
  | 24 => .ldio rd rs imm
  | 25 => .stio rd rs imm
  | 26 => .unassigned26 off
  | 27 => .unassigned27 off
  | 28 => .unassigned28 off
  | 29 => .unassigned29 off
  | 30 => .unassigned30 off
  | 31 => .unassigned31 off
  | 32 => .unassigned32 off
  | 33 => .unassigned33 off
  | 34 => .unassigned34 off
  | 35 => .unassigned35 off
  | 36 => .unassigned36 off
  | 37 => .unassigned37 off
  | 38 => .unassigned38 off
  | 39 => .unassigned39 off
  | 40 => .jal rd rs imm
  | 41 => .jsh off.toInt
  | 42 => .beq rd rs imm
  | 43 => .bne rd rs imm
  | 44 => .blt rd rs imm
  | 45 => .bge rd rs imm
  | 46 => .bltu rd rs imm
  | 47 => .bgeu rd rs imm
  | 48 => .unassigned48 off
  | 49 => .unassigned49 off
  | 50 => .unassigned50 off
  | 51 => .unassigned51 off
  | 52 => .unassigned52 off
  | 53 => .unassigned53 off
  | 54 => .unassigned54 off
  | 55 => .unassigned55 off
  | 56 => .unassigned56 off
  | 57 => .unassigned57 off
  | 58 => .unassigned58 off
  | 59 => .unassigned59 off
  | 60 => .unassigned60 off
  | 61 => .unassigned61 off
  | 62 => .unassigned62 off
  -- OP is below 64, so what is left is 63.
  | _ => .unassigned63 off

/-- The decoder (R48 to R56): the instruction that the instruction word `iw` and the word after it stand for. -/
def decode (iw imm : Word) : Instr := decodeFields (fieldOp iw) (fieldS iw) (fieldD iw) (fieldOff iw) imm

/-- Why a stream of words holds no whole instruction. No instruction WORD is ever rejected (R56); a stream can end early. -/
inductive DecodeReject where
  /-- There is no word at all. -/
  | noInstructionWord
  /-- The two-word instruction with this opcode lacks its immediate word (R50, R55). -/
  | noImmediateWord (op : BitVec 6)
  deriving DecidableEq, Repr

/-- Decoding from a stream of words: the instruction and the words after it, or the reason there is none. The length
comes from OP alone (R55, R61). -/
def decodeStream : List Word → Except DecodeReject (Instr × List Word)
  | [] => .error .noInstructionWord
  | [iw] => if usesImm (fieldOp iw) then .error (.noImmediateWord (fieldOp iw)) else .ok (decode iw 0#16, [])
  | iw :: imm :: rest =>
    if usesImm (fieldOp iw) then .ok (decode iw imm, rest) else .ok (decode iw imm, imm :: rest)

/-- A word from its fields: `iw = {S, D, OP}` (R57). -/
def wordOfFields (rs rd : RegIdx) (op : BitVec 6) : Word := rs ++ rd ++ op

/-- A word from its 10 upper bits and its opcode: JSH's `{OFF, OP}` (R49) and format U (R51). -/
def wordOfUpper (upper : BitVec 10) (op : BitVec 6) : Word := upper ++ op

/-- The instruction word of an instruction (R57). -/
def encodeWord : Instr → Word
  | .add rd rs => wordOfFields rs rd 0#6
  | .sub rd rs => wordOfFields rs rd 1#6
  | .and rd rs => wordOfFields rs rd 2#6
  | .or rd rs => wordOfFields rs rd 3#6
  | .xor rd rs => wordOfFields rs rd 4#6
  | .sll rd rs => wordOfFields rs rd 5#6
  | .srl rd rs => wordOfFields rs rd 6#6
  | .sra rd rs => wordOfFields rs rd 7#6
  | .addi rd rs _ => wordOfFields rs rd 8#6
  | .unassigned09 ignored => wordOfUpper ignored 9#6
  | .andi rd rs _ => wordOfFields rs rd 10#6
  | .ori rd rs _ => wordOfFields rs rd 11#6
  | .xori rd rs _ => wordOfFields rs rd 12#6
  | .sfti rd rs _ => wordOfFields rs rd 13#6
  | .unassigned14 ignored => wordOfUpper ignored 14#6
  | .srai rd rs _ => wordOfFields rs rd 15#6
  | .ld rd rs => wordOfFields rs rd 16#6
  | .st rd rs => wordOfFields rs rd 17#6
  | .unassigned18 ignored => wordOfUpper ignored 18#6
  | .unassigned19 ignored => wordOfUpper ignored 19#6
  | .unassigned20 ignored => wordOfUpper ignored 20#6
  | .unassigned21 ignored => wordOfUpper ignored 21#6
  | .unassigned22 ignored => wordOfUpper ignored 22#6
  | .unassigned23 ignored => wordOfUpper ignored 23#6
  | .ldio rd rs _ => wordOfFields rs rd 24#6
  | .stio rd rs _ => wordOfFields rs rd 25#6
  | .unassigned26 ignored => wordOfUpper ignored 26#6
  | .unassigned27 ignored => wordOfUpper ignored 27#6
  | .unassigned28 ignored => wordOfUpper ignored 28#6
  | .unassigned29 ignored => wordOfUpper ignored 29#6
  | .unassigned30 ignored => wordOfUpper ignored 30#6
  | .unassigned31 ignored => wordOfUpper ignored 31#6
  | .unassigned32 ignored => wordOfUpper ignored 32#6
  | .unassigned33 ignored => wordOfUpper ignored 33#6
  | .unassigned34 ignored => wordOfUpper ignored 34#6
  | .unassigned35 ignored => wordOfUpper ignored 35#6
  | .unassigned36 ignored => wordOfUpper ignored 36#6
  | .unassigned37 ignored => wordOfUpper ignored 37#6
  | .unassigned38 ignored => wordOfUpper ignored 38#6
  | .unassigned39 ignored => wordOfUpper ignored 39#6
  | .jal rd rs _ => wordOfFields rs rd 40#6
  | .jsh off => wordOfUpper (BitVec.ofInt 10 off) 41#6
  | .beq rd rs _ => wordOfFields rs rd 42#6
  | .bne rd rs _ => wordOfFields rs rd 43#6
  | .blt rd rs _ => wordOfFields rs rd 44#6
  | .bge rd rs _ => wordOfFields rs rd 45#6
  | .bltu rd rs _ => wordOfFields rs rd 46#6
  | .bgeu rd rs _ => wordOfFields rs rd 47#6
  | .unassigned48 ignored => wordOfUpper ignored 48#6
  | .unassigned49 ignored => wordOfUpper ignored 49#6
  | .unassigned50 ignored => wordOfUpper ignored 50#6
  | .unassigned51 ignored => wordOfUpper ignored 51#6
  | .unassigned52 ignored => wordOfUpper ignored 52#6
  | .unassigned53 ignored => wordOfUpper ignored 53#6
  | .unassigned54 ignored => wordOfUpper ignored 54#6
  | .unassigned55 ignored => wordOfUpper ignored 55#6
  | .unassigned56 ignored => wordOfUpper ignored 56#6
  | .unassigned57 ignored => wordOfUpper ignored 57#6
  | .unassigned58 ignored => wordOfUpper ignored 58#6
  | .unassigned59 ignored => wordOfUpper ignored 59#6
  | .unassigned60 ignored => wordOfUpper ignored 60#6
  | .unassigned61 ignored => wordOfUpper ignored 61#6
  | .unassigned62 ignored => wordOfUpper ignored 62#6
  | .unassigned63 ignored => wordOfUpper ignored 63#6

/-- The words of an instruction: its instruction word and, for a two-word instruction, its immediate word (R55, R57). -/
def encode (i : Instr) : List Word := encodeWord i :: i.immediate.toList

/-- The instruction the decoder reads from an instruction whose bits are `w`: bits 15 to 0 are the instruction word, bits
31 to 16 the immediate word, and every bit from `nbits` on is 0. The decoder is total (R56), so there always is one. -/
def decodeTableWord (nbits w : Nat) : Option Instr :=
  let bits := w % 2 ^ nbits
  some (decode (BitVec.ofNat 16 bits) (BitVec.ofNat 16 (bits / 2 ^ 16)))

end Sys2Proof
end

