-- ==== Sys2Proof/Machine/Ops.lean ====
section
/-!
DEFINITION. The named operations over memory, registers and the program counter (00_scope.md R11), and the fetch. The
hardware has no exception and no return from one (60_exceptions.md R122, R125, R126), so there is no operation for either.
-/

namespace Sys2Proof.Machine

/-- What a step answers. -/
abbrev Result := Host.Outcome State Fault Refusal

/-- The value the list holds at an address, none where the address is not listed. -/
def Memory.lookup : Memory → Nat → Option Word
  | [], _ => none
  | c :: m, a => if a = c.1 then some c.2 else Memory.lookup m a

/-- Lists the value `v` at the address `a`, in place of what was listed there. -/
def Memory.insert : Memory → Nat → Word → Memory
  | [], a, v => [(a, v)]
  | c :: m, a, v =>
    if a < c.1 then (a, v) :: c :: m
    else if a = c.1 then (a, v) :: m
    else c :: Memory.insert m a v

/-- Takes the address `a` off the list. -/
def Memory.erase (m : Memory) (a : Nat) : Memory := m.filter fun c => c.1 ≠ a

/-- Writes one cell (R34, R38), keeping the canonical form: the value an unlisted address holds is not listed. -/
def Memory.write (rc : ResetContents) (m : Memory) (a : Nat) (v : Word) : Memory :=
  if rc.cell = some v then Memory.erase m a else Memory.insert m a v

/-- What the cell at `a` holds (R38): the value last written, else the reset contents; none where it holds no specified
value (R30). -/
def State.cell? (s : State) (a : Word) : Option Word :=
  (Memory.lookup s.mem a.toNat).or s.cfg.resetContents.cell

/-- `MemRead(a, 1)` (R11, R34): the word at the word address `a`; a free value where none is specified (R30; log entry 5). -/
def State.memRead (s : State) (a : Word) : Word :=
  (s.cell? a).getD (Config.freeCell s.draws a)

/-- `MemWrite(a, 1, v)` (R11, R34). -/
def State.memWrite (s : State) (a v : Word) : State :=
  { s with mem := Memory.write s.cfg.resetContents s.mem a.toNat v }

/-- The place of a register other than r0 in `regs`. -/
theorem slot_lt (i : RegIdx) : i.toNat - 1 < 31 := by have := i.isLt; omega

/-- What register `i` holds: 0x0000 for r0 (R17); none where it holds no specified value (R30). -/
def State.reg? (s : State) (i : RegIdx) : Option Word :=
  if i = 0#5 then some 0x0000#16
  else if i ∈ s.unwritten then none
  else some (s.regs[i.toNat - 1]'(slot_lt i))

/-- `x[i]` (R11, R17): reads register `i`; a free value where none is specified (R30; log entry 5). -/
def State.reg (s : State) (i : RegIdx) : Word :=
  (s.reg? i).getD (Config.freeReg s.draws i)

/-- `x[i] <- v` (R11, R17): writes register `i`; a write to r0 is discarded. -/
def State.setReg (s : State) (i : RegIdx) (v : Word) : State :=
  if i = 0#5 then s
  else { s with
    regs := s.regs.set (i.toNat - 1) v (slot_lt i)
    unwritten := s.unwritten.filter fun j => j ≠ i }

/-- Moves on to fresh free values, where the machine draws any (R30, R76): after each step, so that each execution draws
its own. Nothing changes under the default parameters. -/
def State.tick (s : State) : State :=
  { s with draws := if s.cfg.draws then s.draws + 1 else s.draws }

/-- Ends the step with `pc <- t` (R11, R12d): the pc update is last. -/
def State.finish (s : State) (t : Word) : State := { s.tick with pc := t }

/-- Ends the step at the word `n` after the instruction's first word, mod 2^16: `SEQ1` and `SEQ2` of R80 (R22). -/
def State.advance (s : State) (n : Word) : State := s.finish (s.pc + n)

/-- The fetch and decode phases (R70, R71): the instruction word at pc and the immediate word at pc + 1 mod 2^16, always
both, decoded. -/
def State.fetch (s : State) : Instr := decode (s.memRead s.pc) (s.memRead (s.pc + 1#16))

/-- Stores the words an instruction's bits `w` stand for where the next step fetches them: bits 15 to 0 at pc, bits 31 to 16
at pc + 1 (R47, R48, R50); every bit from `nbits` on is 0. -/
def State.placeWords (s : State) (nbits w : Nat) : State :=
  let bits := w % 2 ^ nbits
  (s.memWrite s.pc (BitVec.ofNat 16 bits)).memWrite (s.pc + 1#16) (BitVec.ofNat 16 (bits / 2 ^ 16))

end Sys2Proof.Machine
end

