-- ==== Sys2Proof/Machine/Operands.lean ====
section
/-!
DEFINITION. The operand forms beside plain registers and immediates: data addresses, jump targets and the link value
(40_step.md R79, R80; 43_load_store.md R106; 44_control.md R111).
-/

namespace Sys2Proof.Machine

/-- The address of LD and ST: `ea := vs` (R79, R106). -/
def State.eaReg (s : State) (rs : RegIdx) : Word := s.reg rs

/-- `vs + imm` mod 2^16: the address of LDIO and STIO (R79, R106) and JAL's target (R80, R112). -/
def State.eaOffset (s : State) (rs : RegIdx) (imm : Word) : Word := s.reg rs + imm

/-- JAL's return address `pc + 2` mod 2^16 (R78, R112). -/
def State.link (s : State) : Word := s.pc + 2#16

/-- JSH's target `pc + sext_10(OFF)` mod 2^16, relative to the JSH itself (R80, R113). -/
def State.shortTarget (s : State) (off : Int) : Word := s.pc + BitVec.ofInt 16 off

end Sys2Proof.Machine
end

