-- ==== Sys2Proof/Machine/Control.lean ====
section
/-!
DEFINITION. The control transfer family (44_control.md R111 to R119). No delay slots: the new pc takes effect at the next
step (R111).
-/

namespace Sys2Proof.Machine

/-- JAL, jump and link (R112): the target uses the old `x[S]` (D7; log entry 10), then `x[D] <- pc + 2`, then the jump. -/
def execJal (rd rs : RegIdx) (imm : Word) (s : State) : Result :=
  .next ((s.setReg rd s.link).finish (s.eaOffset rs imm))

/-- JSH, short jump relative to the pc (R113). -/
def execJsh (off : Int) (s : State) : Result :=
  .next (s.finish (s.shortTarget off))

/-- The conditional branches (R80 `BR`): the immediate as an absolute target if the comparator bit of `vd` and `vs` is 1,
else `pc + 2`. -/
def State.branch (s : State) (c : Cond) (rd rs : RegIdx) (imm : Word) : Result :=
  .next (s.finish (if c.holds (s.reg rd) (s.reg rs) then imm else s.pc + 2#16))

/-- BEQ, branch if equal (R114). -/
def execBeq (rd rs : RegIdx) (imm : Word) (s : State) : Result :=
  s.branch .eq rd rs imm

/-- BNE, branch if not equal (R115). -/
def execBne (rd rs : RegIdx) (imm : Word) (s : State) : Result :=
  s.branch .ne rd rs imm

/-- BLT, branch if less than, signed (R116). -/
def execBlt (rd rs : RegIdx) (imm : Word) (s : State) : Result :=
  s.branch .ltS rd rs imm

/-- BGE, branch if greater than or equal, signed (R117). -/
def execBge (rd rs : RegIdx) (imm : Word) (s : State) : Result :=
  s.branch .geS rd rs imm

/-- BLTU, branch if less than, unsigned (R118). -/
def execBltu (rd rs : RegIdx) (imm : Word) (s : State) : Result :=
  s.branch .ltU rd rs imm

/-- BGEU, branch if greater than or equal, unsigned (R119). -/
def execBgeu (rd rs : RegIdx) (imm : Word) (s : State) : Result :=
  s.branch .geU rd rs imm

end Sys2Proof.Machine
end

