-- ==== Sys2Proof/Machine/Alu.lean ====
section
/-!
DEFINITION. The ALU functions and the bidirectional shifter (40_step.md R73 to R76).
-/

namespace Sys2Proof.Machine

/-- `ADD(a, b) = (a + b) mod 2^16` (R73). -/
def aluAdd (a b : Word) : Word := a + b

/-- `SUB(a, b) = (a - b) mod 2^16` (R73). -/
def aluSub (a b : Word) : Word := a - b

/-- `AND(a, b)` (R73). -/
def aluAnd (a b : Word) : Word := a &&& b

/-- `OR(a, b)` (R73). -/
def aluOr (a b : Word) : Word := a ||| b

/-- `XOR(a, b)` (R73). -/
def aluXor (a b : Word) : Word := a ^^^ b

/-- `shl(v, m)` (R74): left by `m`, zeros from the bottom. -/
def shl (v : Word) (m : Nat) : Word := v <<< m

/-- `lsr(v, m)` (R74): right by `m`, zeros from the top. -/
def lsr (v : Word) (m : Nat) : Word := v >>> m

/-- `asr(v, m)` (R74): right by `m`, copies of bit 15 from the top. -/
def asr (v : Word) (m : Nat) : Word := v.sshiftRight m

/-- What the shifter takes beside its operands: the parameter `SHIFT_OOR` and the free value of `any` (R76). -/
structure ShiftEnv where
  oor : ShiftOor
  free : Word
  deriving DecidableEq, Repr

/-- The shifter's surroundings in a state. -/
def State.shiftEnv (s : State) : ShiftEnv where
  oor := s.cfg.shiftOor
  free := Config.freeShift s.draws

/-- One shift by the magnitude `m` (R74), where `m` is 16 or more as `SHIFT_OOR` says (R76; log entries 3 and 4). -/
def shiftBy (e : ShiftEnv) (prim : Word → Nat → Word) (v : Word) (m : Nat) : Word :=
  if m < 16 then prim v m
  else match e.oor with
    | .full => prim v m
    | .mod16 => prim v (m % 16)
    | .any => e.free

/-- The bidirectional shift (R75): `n := sint(b)`, `m := |n|` in the integers (D16; log entry 9); `fwd` where n > 0, else
`bwd`. -/
def shiftSigned (e : ShiftEnv) (fwd bwd : Word → Nat → Word) (v b : Word) : Word :=
  if 0 < b.toInt then shiftBy e fwd v b.toInt.natAbs else shiftBy e bwd v b.toInt.natAbs

/-- `SHL_L` (R75), of SLL and SFTI: left, and for a negative amount logically right (D4; log entry 7). -/
def shlL (e : ShiftEnv) (v b : Word) : Word := shiftSigned e shl lsr v b

/-- `SHL_R` (R75), of SRL: logically right, and for a negative amount left. -/
def shlR (e : ShiftEnv) (v b : Word) : Word := shiftSigned e lsr shl v b

/-- `SHL_A` (R75), of SRA and SRAI: arithmetically right, and for a negative amount left with zero fill (D4; log entry 7). -/
def shlA (e : ShiftEnv) (v b : Word) : Word := shiftSigned e asr shl v b

end Sys2Proof.Machine
end

