-- ==== Sys2Proof/Machine/ImmediateAlu.lean ====
section
/-!
DEFINITION. The immediate ALU family (42_immediate_alu.md R99 to R105): `x[D] <- vs op imm; pc <- pc + 2`.
-/

namespace Sys2Proof.Machine

/-- Common to the family (R99): the result goes to `x[D]` (discarded for D = 0) and the pc advances by 2. -/
def State.immAlu (s : State) (rd : RegIdx) (result : Word) : Result :=
  .next ((s.setReg rd result).advance 2#16)

/-- ADDI, add immediate (R100). -/
def execAddi (rd rs : RegIdx) (imm : Word) (s : State) : Result :=
  s.immAlu rd (aluAdd (s.reg rs) imm)

/-- ANDI, and immediate (R101). -/
def execAndi (rd rs : RegIdx) (imm : Word) (s : State) : Result :=
  s.immAlu rd (aluAnd (s.reg rs) imm)

/-- ORI, or immediate (R102). -/
def execOri (rd rs : RegIdx) (imm : Word) (s : State) : Result :=
  s.immAlu rd (aluOr (s.reg rs) imm)

/-- XORI, exclusive-or immediate (R103). -/
def execXori (rd rs : RegIdx) (imm : Word) (s : State) : Result :=
  s.immAlu rd (aluXor (s.reg rs) imm)

/-- SFTI, shift by a signed immediate amount (R104). -/
def execSfti (rd rs : RegIdx) (imm : Word) (s : State) : Result :=
  s.immAlu rd (shlL s.shiftEnv (s.reg rs) imm)

/-- SRAI, arithmetic shift by a signed immediate amount (R105). -/
def execSrai (rd rs : RegIdx) (imm : Word) (s : State) : Result :=
  s.immAlu rd (shlA s.shiftEnv (s.reg rs) imm)

end Sys2Proof.Machine
end

