-- ==== Sys2Proof/Machine/LoadStore.lean ====
section
/-!
DEFINITION. The load and store family (43_load_store.md R106 to R110). Every address exists, so no access stops (R41).
-/

namespace Sys2Proof.Machine

/-- LD, load word, register indirect (R107): `x[D] <- MemRead(vs, 1); pc <- pc + 1`. -/
def execLd (rd rs : RegIdx) (s : State) : Result :=
  .next ((s.setReg rd (s.memRead (s.eaReg rs))).advance 1#16)

/-- ST, store word, register indirect (R108): `MemWrite(vs, 1, vd); pc <- pc + 1`. -/
def execSt (rd rs : RegIdx) (s : State) : Result :=
  .next ((s.memWrite (s.eaReg rs) (s.reg rd)).advance 1#16)

/-- LDIO, load word, register plus immediate offset (R109): `x[D] <- MemRead(vs + imm, 1); pc <- pc + 2`. -/
def execLdio (rd rs : RegIdx) (imm : Word) (s : State) : Result :=
  .next ((s.setReg rd (s.memRead (s.eaOffset rs imm))).advance 2#16)

/-- STIO, store word, register plus immediate offset (R110): `MemWrite(vs + imm, 1, vd); pc <- pc + 2`. -/
def execStio (rd rs : RegIdx) (imm : Word) (s : State) : Result :=
  .next ((s.memWrite (s.eaOffset rs imm) (s.reg rd)).advance 2#16)

end Sys2Proof.Machine
end

