-- ==== Sys2Proof/Machine/RegisterAlu.lean ====
section
/-!
DEFINITION. The register ALU family (41_register_alu.md R90 to R98): `x[D] <- vd op vs; pc <- pc + 1`.
-/

namespace Sys2Proof.Machine

/-- Common to the family (R90): the result goes to `x[D]` (discarded for D = 0) and the pc advances by 1. The operands were
read before any write (R71). -/
def State.regAlu (s : State) (rd : RegIdx) (result : Word) : Result :=
  .next ((s.setReg rd result).advance 1#16)

/-- ADD, add (R91). -/
def execAdd (rd rs : RegIdx) (s : State) : Result :=
  s.regAlu rd (aluAdd (s.reg rd) (s.reg rs))

/-- SUB, subtract (R92). -/
def execSub (rd rs : RegIdx) (s : State) : Result :=
  s.regAlu rd (aluSub (s.reg rd) (s.reg rs))

/-- AND, bitwise and (R93). -/
def execAnd (rd rs : RegIdx) (s : State) : Result :=
  s.regAlu rd (aluAnd (s.reg rd) (s.reg rs))

/-- OR, bitwise inclusive or (R94). -/
def execOr (rd rs : RegIdx) (s : State) : Result :=
  s.regAlu rd (aluOr (s.reg rd) (s.reg rs))

/-- XOR, bitwise exclusive or (R95). -/
def execXor (rd rs : RegIdx) (s : State) : Result :=
  s.regAlu rd (aluXor (s.reg rd) (s.reg rs))

/-- SLL, shift left logical by a signed register amount (R96). -/
def execSll (rd rs : RegIdx) (s : State) : Result :=
  s.regAlu rd (shlL s.shiftEnv (s.reg rd) (s.reg rs))

/-- SRL, shift right logical by a signed register amount (R97). -/
def execSrl (rd rs : RegIdx) (s : State) : Result :=
  s.regAlu rd (shlR s.shiftEnv (s.reg rd) (s.reg rs))

/-- SRA, shift right arithmetic by a signed register amount (R98). -/
def execSra (rd rs : RegIdx) (s : State) : Result :=
  s.regAlu rd (shlA s.shiftEnv (s.reg rd) (s.reg rs))

end Sys2Proof.Machine
end

