-- ==== Sys2Proof/Machine/Unassigned.lean ====
section
/-!
DEFINITION. The 38 unassigned opcodes (45_unassigned.md R120, R121): one behaviour, one definition for each row of
spec/opcode_table.json. The bits [15:6] are ignored.
-/

namespace Sys2Proof.Machine

/-- An unassigned opcode: under `UNASSIGNED_POLICY = nop` the pc advances by 1 and nothing else changes (R120; log entry 3);
under `refuse` the step has no meaning (R121). -/
def State.unassigned (s : State) (op : BitVec 6) : Result :=
  match s.cfg.unassigned with
  | .nop => .next (s.advance 1#16)
  | .refuse => .refused (.unassignedOpcode op)

/-- The unassigned opcode 9 (R120, R121). -/
def execUnassigned09 (s : State) : Result := s.unassigned 9#6

/-- The unassigned opcode 14 (R120, R121). -/
def execUnassigned14 (s : State) : Result := s.unassigned 14#6

/-- The unassigned opcode 18 (R120, R121). -/
def execUnassigned18 (s : State) : Result := s.unassigned 18#6

/-- The unassigned opcode 19 (R120, R121). -/
def execUnassigned19 (s : State) : Result := s.unassigned 19#6

/-- The unassigned opcode 20 (R120, R121). -/
def execUnassigned20 (s : State) : Result := s.unassigned 20#6

/-- The unassigned opcode 21 (R120, R121). -/
def execUnassigned21 (s : State) : Result := s.unassigned 21#6

/-- The unassigned opcode 22 (R120, R121). -/
def execUnassigned22 (s : State) : Result := s.unassigned 22#6

/-- The unassigned opcode 23 (R120, R121). -/
def execUnassigned23 (s : State) : Result := s.unassigned 23#6

/-- The unassigned opcode 26 (R120, R121). -/
def execUnassigned26 (s : State) : Result := s.unassigned 26#6

/-- The unassigned opcode 27 (R120, R121). -/
def execUnassigned27 (s : State) : Result := s.unassigned 27#6

/-- The unassigned opcode 28 (R120, R121). -/
def execUnassigned28 (s : State) : Result := s.unassigned 28#6

/-- The unassigned opcode 29 (R120, R121). -/
def execUnassigned29 (s : State) : Result := s.unassigned 29#6

/-- The unassigned opcode 30 (R120, R121). -/
def execUnassigned30 (s : State) : Result := s.unassigned 30#6

/-- The unassigned opcode 31 (R120, R121). -/
def execUnassigned31 (s : State) : Result := s.unassigned 31#6

/-- The unassigned opcode 32 (R120, R121). -/
def execUnassigned32 (s : State) : Result := s.unassigned 32#6

/-- The unassigned opcode 33 (R120, R121). -/
def execUnassigned33 (s : State) : Result := s.unassigned 33#6

/-- The unassigned opcode 34 (R120, R121). -/
def execUnassigned34 (s : State) : Result := s.unassigned 34#6

/-- The unassigned opcode 35 (R120, R121). -/
def execUnassigned35 (s : State) : Result := s.unassigned 35#6

/-- The unassigned opcode 36 (R120, R121). -/
def execUnassigned36 (s : State) : Result := s.unassigned 36#6

/-- The unassigned opcode 37 (R120, R121). -/
def execUnassigned37 (s : State) : Result := s.unassigned 37#6

/-- The unassigned opcode 38 (R120, R121). -/
def execUnassigned38 (s : State) : Result := s.unassigned 38#6

/-- The unassigned opcode 39 (R120, R121). -/
def execUnassigned39 (s : State) : Result := s.unassigned 39#6

/-- The unassigned opcode 48 (R120, R121). -/
def execUnassigned48 (s : State) : Result := s.unassigned 48#6

/-- The unassigned opcode 49 (R120, R121). -/
def execUnassigned49 (s : State) : Result := s.unassigned 49#6

/-- The unassigned opcode 50 (R120, R121). -/
def execUnassigned50 (s : State) : Result := s.unassigned 50#6

/-- The unassigned opcode 51 (R120, R121). -/
def execUnassigned51 (s : State) : Result := s.unassigned 51#6

/-- The unassigned opcode 52 (R120, R121). -/
def execUnassigned52 (s : State) : Result := s.unassigned 52#6

/-- The unassigned opcode 53 (R120, R121). -/
def execUnassigned53 (s : State) : Result := s.unassigned 53#6

/-- The unassigned opcode 54 (R120, R121). -/
def execUnassigned54 (s : State) : Result := s.unassigned 54#6

/-- The unassigned opcode 55 (R120, R121). -/
def execUnassigned55 (s : State) : Result := s.unassigned 55#6

/-- The unassigned opcode 56 (R120, R121). -/
def execUnassigned56 (s : State) : Result := s.unassigned 56#6

/-- The unassigned opcode 57 (R120, R121). -/
def execUnassigned57 (s : State) : Result := s.unassigned 57#6

/-- The unassigned opcode 58 (R120, R121). -/
def execUnassigned58 (s : State) : Result := s.unassigned 58#6

/-- The unassigned opcode 59 (R120, R121). -/
def execUnassigned59 (s : State) : Result := s.unassigned 59#6

/-- The unassigned opcode 60 (R120, R121). -/
def execUnassigned60 (s : State) : Result := s.unassigned 60#6

/-- The unassigned opcode 61 (R120, R121). -/
def execUnassigned61 (s : State) : Result := s.unassigned 61#6

/-- The unassigned opcode 62 (R120, R121). -/
def execUnassigned62 (s : State) : Result := s.unassigned 62#6

/-- The unassigned opcode 63 (R120, R121). -/
def execUnassigned63 (s : State) : Result := s.unassigned 63#6

end Sys2Proof.Machine
end

