-- ==== Sys2Proof/Machine/Dispatch.lean ====
section
/-!
DEFINITION. One arm per instruction: the call of its meaning.
-/

namespace Sys2Proof.Machine

def exec (i : Instr) (s : State) : Host.Outcome State Fault Refusal :=
  match i with
  | .add rd rs => Sys2Proof.Machine.execAdd rd rs s
  | .sub rd rs => Sys2Proof.Machine.execSub rd rs s
  | .and rd rs => Sys2Proof.Machine.execAnd rd rs s
  | .or rd rs => Sys2Proof.Machine.execOr rd rs s
  | .xor rd rs => Sys2Proof.Machine.execXor rd rs s
  | .sll rd rs => Sys2Proof.Machine.execSll rd rs s
  | .srl rd rs => Sys2Proof.Machine.execSrl rd rs s
  | .sra rd rs => Sys2Proof.Machine.execSra rd rs s
  | .addi rd rs imm => Sys2Proof.Machine.execAddi rd rs imm s
  | .unassigned09 _ => Sys2Proof.Machine.execUnassigned09 s
  | .andi rd rs imm => Sys2Proof.Machine.execAndi rd rs imm s
  | .ori rd rs imm => Sys2Proof.Machine.execOri rd rs imm s
  | .xori rd rs imm => Sys2Proof.Machine.execXori rd rs imm s
  | .sfti rd rs imm => Sys2Proof.Machine.execSfti rd rs imm s
  | .unassigned14 _ => Sys2Proof.Machine.execUnassigned14 s
  | .srai rd rs imm => Sys2Proof.Machine.execSrai rd rs imm s
  | .ld rd rs => Sys2Proof.Machine.execLd rd rs s
  | .st rd rs => Sys2Proof.Machine.execSt rd rs s
  | .unassigned18 _ => Sys2Proof.Machine.execUnassigned18 s
  | .unassigned19 _ => Sys2Proof.Machine.execUnassigned19 s
  | .unassigned20 _ => Sys2Proof.Machine.execUnassigned20 s
  | .unassigned21 _ => Sys2Proof.Machine.execUnassigned21 s
  | .unassigned22 _ => Sys2Proof.Machine.execUnassigned22 s
  | .unassigned23 _ => Sys2Proof.Machine.execUnassigned23 s
  | .ldio rd rs imm => Sys2Proof.Machine.execLdio rd rs imm s
  | .stio rd rs imm => Sys2Proof.Machine.execStio rd rs imm s
  | .unassigned26 _ => Sys2Proof.Machine.execUnassigned26 s
  | .unassigned27 _ => Sys2Proof.Machine.execUnassigned27 s
  | .unassigned28 _ => Sys2Proof.Machine.execUnassigned28 s
  | .unassigned29 _ => Sys2Proof.Machine.execUnassigned29 s
  | .unassigned30 _ => Sys2Proof.Machine.execUnassigned30 s
  | .unassigned31 _ => Sys2Proof.Machine.execUnassigned31 s
  | .unassigned32 _ => Sys2Proof.Machine.execUnassigned32 s
  | .unassigned33 _ => Sys2Proof.Machine.execUnassigned33 s
  | .unassigned34 _ => Sys2Proof.Machine.execUnassigned34 s
  | .unassigned35 _ => Sys2Proof.Machine.execUnassigned35 s
  | .unassigned36 _ => Sys2Proof.Machine.execUnassigned36 s
  | .unassigned37 _ => Sys2Proof.Machine.execUnassigned37 s
  | .unassigned38 _ => Sys2Proof.Machine.execUnassigned38 s
  | .unassigned39 _ => Sys2Proof.Machine.execUnassigned39 s
  | .jal rd rs imm => Sys2Proof.Machine.execJal rd rs imm s
  | .jsh off => Sys2Proof.Machine.execJsh off s
  | .beq rd rs imm => Sys2Proof.Machine.execBeq rd rs imm s
  | .bne rd rs imm => Sys2Proof.Machine.execBne rd rs imm s
  | .blt rd rs imm => Sys2Proof.Machine.execBlt rd rs imm s
  | .bge rd rs imm => Sys2Proof.Machine.execBge rd rs imm s
  | .bltu rd rs imm => Sys2Proof.Machine.execBltu rd rs imm s
  | .bgeu rd rs imm => Sys2Proof.Machine.execBgeu rd rs imm s
  | .unassigned48 _ => Sys2Proof.Machine.execUnassigned48 s
  | .unassigned49 _ => Sys2Proof.Machine.execUnassigned49 s
  | .unassigned50 _ => Sys2Proof.Machine.execUnassigned50 s
  | .unassigned51 _ => Sys2Proof.Machine.execUnassigned51 s
  | .unassigned52 _ => Sys2Proof.Machine.execUnassigned52 s
  | .unassigned53 _ => Sys2Proof.Machine.execUnassigned53 s
  | .unassigned54 _ => Sys2Proof.Machine.execUnassigned54 s
  | .unassigned55 _ => Sys2Proof.Machine.execUnassigned55 s
  | .unassigned56 _ => Sys2Proof.Machine.execUnassigned56 s
  | .unassigned57 _ => Sys2Proof.Machine.execUnassigned57 s
  | .unassigned58 _ => Sys2Proof.Machine.execUnassigned58 s
  | .unassigned59 _ => Sys2Proof.Machine.execUnassigned59 s
  | .unassigned60 _ => Sys2Proof.Machine.execUnassigned60 s
  | .unassigned61 _ => Sys2Proof.Machine.execUnassigned61 s
  | .unassigned62 _ => Sys2Proof.Machine.execUnassigned62 s
  | .unassigned63 _ => Sys2Proof.Machine.execUnassigned63 s

end Sys2Proof.Machine
end

