-- ==== Sys2Proof/Machine/Step.lean ====
section
/-!
DEFINITION. The step (40_step.md R69 to R71, R82): fetch and decode, then execute exactly one instruction.
-/

namespace Sys2Proof.Machine

/-- `step()` (R69, R82): the one state transition of the block. -/
def step (s : State) : Host.Outcome State Fault Refusal := exec s.fetch s

/-- `s` with the instruction of the bits `w` (those from `nbits` on zero) stored where `step` fetches its next instruction. -/
def State.withFetchWord (s : State) (nbits w : Nat) : State := s.placeWords nbits w

end Sys2Proof.Machine
end

