-- ==== Sys2Proof/Machine/Assembly.lean ====
section
/-!
DEFINITION. The source form of the instructions (30_encoding.md R62 to R66): how the disassembler displays one, how one is
written and read back, and the spec's pseudo-instructions as spellings of real ones (R68). Nothing here affects execution.
-/

namespace Sys2Proof

/-- A hexadecimal digit, displayed in upper case (R64). -/
def hexChar (n : BitVec 4) : Char :=
  match n.toNat with
  | 0 => '0'
  | 1 => '1'
  | 2 => '2'
  | 3 => '3'
  | 4 => '4'
  | 5 => '5'
  | 6 => '6'
  | 7 => '7'
  | 8 => '8'
  | 9 => '9'
  | 10 => 'A'
  | 11 => 'B'
  | 12 => 'C'
  | 13 => 'D'
  | 14 => 'E'
  | _ => 'F'

/-- The value of a hexadecimal digit; letter case is not significant on input (R64). -/
def hexValue : Char → Option (BitVec 4)
  | '0' => some 0#4
  | '1' => some 1#4
  | '2' => some 2#4
  | '3' => some 3#4
  | '4' => some 4#4
  | '5' => some 5#4
  | '6' => some 6#4
  | '7' => some 7#4
  | '8' => some 8#4
  | '9' => some 9#4
  | 'A' | 'a' => some 10#4
  | 'B' | 'b' => some 11#4
  | 'C' | 'c' => some 12#4
  | 'D' | 'd' => some 13#4
  | 'E' | 'e' => some 14#4
  | 'F' | 'f' => some 15#4
  | _ => none

/-- `0x` and four hexadecimal digits (R64). -/
def showHex (w : Word) : List Char :=
  ['0', 'x', hexChar (w.extractLsb' 12 4), hexChar (w.extractLsb' 8 4), hexChar (w.extractLsb' 4 4),
    hexChar (w.extractLsb' 0 4)]

/-- A signed value: `-0x` and the digits of its magnitude where it is negative (R64). -/
def showSigned (n : Int) : List Char :=
  if n < 0 then '-' :: showHex (BitVec.ofNat 16 n.natAbs) else showHex (BitVec.ofNat 16 n.natAbs)

/-- A decimal digit. -/
def decChar (n : Nat) : Char := hexChar (BitVec.ofNat 4 n)

/-- A register as displayed: `r` and a zero-padded two-digit index (R63). -/
def showReg (i : RegIdx) : List Char := ['r', decChar (i.toNat / 10), decChar (i.toNat % 10)]

/-- A mnemonic and its operands, destination first, separated by a comma and a space (R62). -/
def sourceLine (mnemonic : String) (operands : List (List Char)) : List Char :=
  mnemonic.toList ++ ' ' :: List.intercalate [',', ' '] operands

/-- What the disassembler displays (R62 to R66): the amounts of SFTI and SRAI and the offset of JSH as signed values; the
empty string for an unassigned opcode (R65). -/
def Instr.display : Instr → List Char
  | .add rd rs => sourceLine "ADD" [showReg rd, showReg rs]
  | .sub rd rs => sourceLine "SUB" [showReg rd, showReg rs]
  | .and rd rs => sourceLine "AND" [showReg rd, showReg rs]
  | .or rd rs => sourceLine "OR" [showReg rd, showReg rs]
  | .xor rd rs => sourceLine "XOR" [showReg rd, showReg rs]
  | .sll rd rs => sourceLine "SLL" [showReg rd, showReg rs]
  | .srl rd rs => sourceLine "SRL" [showReg rd, showReg rs]
  | .sra rd rs => sourceLine "SRA" [showReg rd, showReg rs]
  | .addi rd rs imm => sourceLine "ADDI" [showReg rd, showReg rs, showHex imm]
  | .andi rd rs imm => sourceLine "ANDI" [showReg rd, showReg rs, showHex imm]
  | .ori rd rs imm => sourceLine "ORI" [showReg rd, showReg rs, showHex imm]
  | .xori rd rs imm => sourceLine "XORI" [showReg rd, showReg rs, showHex imm]
  | .sfti rd rs imm => sourceLine "SFTI" [showReg rd, showReg rs, showSigned imm.toInt]
  | .srai rd rs imm => sourceLine "SRAI" [showReg rd, showReg rs, showSigned imm.toInt]
  | .ld rd rs => sourceLine "LD" [showReg rd, showReg rs]
  | .st rd rs => sourceLine "ST" [showReg rd, showReg rs]
  | .ldio rd rs imm => sourceLine "LDIO" [showReg rd, showReg rs, showHex imm]
  | .stio rd rs imm => sourceLine "STIO" [showReg rd, showReg rs, showHex imm]
  | .jal rd rs imm => sourceLine "JAL" [showReg rd, showReg rs, showHex imm]
  | .jsh off => sourceLine "JSH" [showSigned off]
  | .beq rd rs imm => sourceLine "BEQ" [showReg rd, showReg rs, showHex imm]
  | .bne rd rs imm => sourceLine "BNE" [showReg rd, showReg rs, showHex imm]
  | .blt rd rs imm => sourceLine "BLT" [showReg rd, showReg rs, showHex imm]
  | .bge rd rs imm => sourceLine "BGE" [showReg rd, showReg rs, showHex imm]
  | .bltu rd rs imm => sourceLine "BLTU" [showReg rd, showReg rs, showHex imm]
  | .bgeu rd rs imm => sourceLine "BGEU" [showReg rd, showReg rs, showHex imm]
  | .unassigned09 _ | .unassigned14 _ | .unassigned18 _ | .unassigned19 _ | .unassigned20 _ | .unassigned21 _
  | .unassigned22 _ | .unassigned23 _ | .unassigned26 _ | .unassigned27 _ | .unassigned28 _ | .unassigned29 _
  | .unassigned30 _ | .unassigned31 _ | .unassigned32 _ | .unassigned33 _ | .unassigned34 _ | .unassigned35 _
  | .unassigned36 _ | .unassigned37 _ | .unassigned38 _ | .unassigned39 _ | .unassigned48 _ | .unassigned49 _
  | .unassigned50 _ | .unassigned51 _ | .unassigned52 _ | .unassigned53 _ | .unassigned54 _ | .unassigned55 _
  | .unassigned56 _ | .unassigned57 _ | .unassigned58 _ | .unassigned59 _ | .unassigned60 _ | .unassigned61 _
  | .unassigned62 _ | .unassigned63 _ => []

/-- The disassembler: a pure function of the instruction word and the word after it, which a one-word instruction's display
ignores (R66). -/
def disassemble (iw imm : Word) : List Char := (decode iw imm).display

/-- The source form of an instruction (R62): as displayed, and `.word 0xNNNN` for an unassigned opcode (R65). -/
def Instr.source (i : Instr) : List Char :=
  if i.isUnassigned then sourceLine ".word" [showHex (encodeWord i)] else i.display

/-- An operand as written: a register, or a sign and four hexadecimal digits (R63, R64). -/
inductive Operand where
  | reg (i : RegIdx)
  | num (negative : Bool) (magnitude : Word)
  deriving DecidableEq, Repr

/-- A decimal digit's value. -/
def decValue (c : Char) : Option Nat :=
  match hexValue c with
  | some n => if n.toNat < 10 then some n.toNat else none
  | none => none

/-- A register from its index, 0 to 31. -/
def operandReg (n : Nat) : Option Operand := if n < 32 then some (.reg (BitVec.ofNat 5 n)) else none

/-- A number from its sign and its four digits. -/
def operandNum (negative : Bool) (a b c d : Char) : Option Operand := do
  let a ← hexValue a
  let b ← hexValue b
  let c ← hexValue c
  let d ← hexValue d
  return .num negative (a ++ b ++ c ++ d)

/-- Reads one operand. A register may be written with one digit or two (R63). -/
def parseOperand : List Char → Option Operand
  | ['r', a] => do operandReg (← decValue a)
  | ['r', a, b] => do operandReg (10 * (← decValue a) + (← decValue b))
  | ['0', 'x', a, b, c, d] => operandNum false a b c d
  | ['-', '0', 'x', a, b, c, d] => operandNum true a b c d
  | _ => none

/-- Splits the operands of a line at each comma and space. -/
def splitOperands : List Char → List (List Char)
  | [] => [[]]
  | ',' :: ' ' :: cs => [] :: splitOperands cs
  | c :: cs =>
    match splitOperands cs with
    | [] => [[c]]
    | o :: os => (c :: o) :: os

/-- A shift amount: the 16-bit pattern itself, or a negative value down to -0x8000 (R64). -/
def amountWord : Bool → Word → Option Word
  | false, w => some w
  | true, w => if w.toNat ≤ 32768 then some (-w) else none

/-- A JSH offset: its signed value in -512 to 511 (R57, R64). -/
def offsetValue (negative : Bool) (w : Word) : Option Int :=
  let n : Int := if negative then -(w.toNat : Int) else w.toNat
  if -512 ≤ n ∧ n ≤ 511 then some n else none

/-- The instruction a mnemonic of R54 and its operands name (R62). -/
def parseCore : String → List Operand → Option Instr
  | "ADD", [.reg d, .reg s] => some (.add d s)
  | "SUB", [.reg d, .reg s] => some (.sub d s)
  | "AND", [.reg d, .reg s] => some (.and d s)
  | "OR", [.reg d, .reg s] => some (.or d s)
  | "XOR", [.reg d, .reg s] => some (.xor d s)
  | "SLL", [.reg d, .reg s] => some (.sll d s)
  | "SRL", [.reg d, .reg s] => some (.srl d s)
  | "SRA", [.reg d, .reg s] => some (.sra d s)
  | "ADDI", [.reg d, .reg s, .num false w] => some (.addi d s w)
  | "ANDI", [.reg d, .reg s, .num false w] => some (.andi d s w)
  | "ORI", [.reg d, .reg s, .num false w] => some (.ori d s w)
  | "XORI", [.reg d, .reg s, .num false w] => some (.xori d s w)
  | "SFTI", [.reg d, .reg s, .num neg w] => (amountWord neg w).map (.sfti d s)
  | "SRAI", [.reg d, .reg s, .num neg w] => (amountWord neg w).map (.srai d s)
  | "LD", [.reg d, .reg s] => some (.ld d s)
  | "ST", [.reg d, .reg s] => some (.st d s)
  | "LDIO", [.reg d, .reg s, .num false w] => some (.ldio d s w)
  | "STIO", [.reg d, .reg s, .num false w] => some (.stio d s w)
  | "JAL", [.reg d, .reg s, .num false w] => some (.jal d s w)
  | "JSH", [.num neg w] => (offsetValue neg w).map .jsh
  | "BEQ", [.reg d, .reg s, .num false w] => some (.beq d s w)
  | "BNE", [.reg d, .reg s, .num false w] => some (.bne d s w)
  | "BLT", [.reg d, .reg s, .num false w] => some (.blt d s w)
  | "BGE", [.reg d, .reg s, .num false w] => some (.bge d s w)
  | "BLTU", [.reg d, .reg s, .num false w] => some (.bltu d s w)
  | "BGEU", [.reg d, .reg s, .num false w] => some (.bgeu d s w)
  | _, _ => none

/-- The pseudo-instructions of R68, each a spelling of the one instruction it expands to (D13). -/
def parsePseudo : String → List Operand → Option Instr
  | "NOP", [] => some (.add 0#5 0#5)
  | "LI", [.reg d, .num false w] => some (.addi d 0#5 w)
  | "MOV", [.reg d, .reg s] => some (.addi d s 0x0000#16)
  | "CLR", [.reg d] => some (.xor d d)
  | "NOT", [.reg d, .reg s] => some (.xori d s 0xFFFF#16)
  | "J", [.num false t] => some (.jal 0#5 0#5 t)
  | "JR", [.reg s] => some (.jal 0#5 s 0x0000#16)
  | "CALL", [.reg l, .num false t] => some (.jal l 0#5 t)
  | "RET", [.reg l] => some (.jal 0#5 l 0x0000#16)
  | "B", [.num false t] => some (.beq 0#5 0#5 t)
  | "BGT", [.reg a, .reg b, .num false t] => some (.blt b a t)
  | "BLE", [.reg a, .reg b, .num false t] => some (.bge b a t)
  | "BGTU", [.reg a, .reg b, .num false t] => some (.bltu b a t)
  | "BLEU", [.reg a, .reg b, .num false t] => some (.bgeu b a t)
  | "HALT", [] => some (.jsh 0)
  | _, _ => none

/-- The words a mnemonic and its operands assemble to: `.word` gives the raw word (R62). -/
def assembleOperation (mnemonic : String) (operands : List Operand) : Option (List Word) :=
  match mnemonic, operands with
  | ".word", [.num false w] => some [w]
  | m, os => ((parseCore m os).or (parsePseudo m os)).map encode

/-- Assembles one source line (R62 to R64, R68). -/
def assemble (line : List Char) : Option (List Word) :=
  let mnemonic := String.ofList (line.takeWhile fun c => c ≠ ' ')
  match line.dropWhile fun c => c ≠ ' ' with
  | [] => assembleOperation mnemonic []
  | _ :: rest => do assembleOperation mnemonic (← (splitOperands rest).mapM parseOperand)

end Sys2Proof
end

