-- ==== Sys2Proof/Machine/Boundary.lean ====
section
/-!
DEFINITION. The boundary of the block: what the outside can do to the machine between steps (40_step.md R84 to R88), how a
program comes into memory (20_memory.md R35, 70_reset_and_hazards.md R137, R138), and several engines side by side (R86).
-/

namespace Sys2Proof.Machine

/-- The operations of the block's interface (R84), each performed while no step is in progress. -/
inductive BoundaryOp where
  /-- `step()`: no parameters and no return value. -/
  | step
  /-- Reading one of the 32 registers. -/
  | readReg (i : RegIdx)
  /-- Writing a register. -/
  | writeReg (i : RegIdx) (v : Word)
  /-- Reading a memory cell. -/
  | readMem (a : Word)
  /-- Writing a memory cell. -/
  | writeMem (a v : Word)
  /-- Reading the pc. -/
  | readPc
  /-- Writing the pc: any 16-bit value. -/
  | writePc (t : Word)
  deriving DecidableEq, Repr

/-- What an operation leaves (R84, R87). A read changes no state but for the free values drawn next, and those move only
where the parameters draw any (R30). -/
def BoundaryOp.apply : BoundaryOp → State → Result
  | .step, s => Machine.step s
  | .readReg _, s => .next s.tick
  | .writeReg i v, s => .next (s.setReg i v)
  | .readMem _, s => .next s.tick
  | .writeMem a v, s => .next (s.memWrite a v)
  | .readPc, s => .next s
  | .writePc t, s => .next { s with pc := t }

/-- What an operation returns: a value for a read, none for a step ("no return value") and for a write (R84). -/
def BoundaryOp.returns : BoundaryOp → State → Option Word
  | .readReg i, s => some (s.reg i)
  | .readMem a, s => some (s.memRead a)
  | .readPc, s => some s.pc
  | .step, _ => none
  | .writeReg _ _, _ => none
  | .writeMem _ _, _ => none
  | .writePc _, _ => none

/-- A run (R88): a finite sequence of operations, the steps among them, stopped by the first refusal. -/
def runOps : List BoundaryOp → State → Result
  | [], s => .next s
  | o :: os, s =>
    match o.apply s with
    | .next t => runOps os t
    | .fault r => .fault r
    | .refused r => .refused r

/-- The loader's word assembly (R35, D10): `{b0, b1}` = b0 × 256 + b1 for consecutive stream bytes. -/
def assembleWord (b0 b1 : Byte) : Word := b0 ++ b1

/-- The words of a byte stream, taken as consecutive pairs of bytes (R35). -/
def assembleWords (bytes : List (Byte × Byte)) : List Word := bytes.map fun p => assembleWord p.1 p.2

/-- What the outside does before the first step (R137, R138): the program and data words, each at the address it chooses,
then registers, then the pc where the program does not start at 0x0000. -/
def bootOps (image : List (Word × Word)) (regs : List (RegIdx × Word)) (entry : Option Word) : List BoundaryOp :=
  image.map (fun c => .writeMem c.1 c.2) ++ regs.map (fun r => .writeReg r.1 r.2)
    ++ (entry.map BoundaryOp.writePc).toList

/-- Several engines side by side (R86): an operation on engine number `k` replaces that engine's state alone. Two cases the
spec has no word on are the model's choice (DESIGN CHOICE, log entry 14): an operation on an engine that does not exist changes
nothing, and where one engine's step is refused (R121) the whole list has no successor. -/
def applyAt (k : Nat) (o : BoundaryOp) (engines : List State) : Host.Outcome (List State) Fault Refusal :=
  match engines[k]? with
  | none => .next engines
  | some s =>
    match o.apply s with
    | .next t => .next (engines.set k t)
    | .fault r => .fault r
    | .refused r => .refused r

end Sys2Proof.Machine
end

