-- ==== Sys2Proof/Machine/Datapath.lean ====
section
/-!
DEFINITION. The step as the spec's datapath (40_step.md R70 to R81): the control signals the decoder makes from OP alone
(R72), the ALU, the comparator, the result and next-pc multiplexers, write-back, and the memory transactions (20_memory.md
R47). A second description of the same step, which the family meanings are held against.
-/

namespace Sys2Proof.Machine

/-- The ALU functions of R72's column `alu`. -/
inductive AluFn where
  | add
  | sub
  | and
  | or
  | xor
  | shiftL
  | shiftR
  | shiftA
  deriving DecidableEq, Repr

/-- The operands `(a, b)` of R72's column `alu`. -/
inductive AluInputs where
  /-- `(vd, vs)`. -/
  | vdVs
  /-- `(vs, imm)`. -/
  | vsImm
  deriving DecidableEq, Repr

/-- The source of the register write data, R72's column `wb`. -/
inductive WbSel where
  | alu
  | mem
  | link
  deriving DecidableEq, Repr

/-- Where a data transaction's address comes from (R79): `vs`, or the ALU's sum. -/
inductive AddrSel where
  | vs
  | alu
  deriving DecidableEq, Repr

/-- The data-memory transaction, R72's column `mem`. -/
inductive MemSel where
  | read (a : AddrSel)
  | write (a : AddrSel)
  deriving DecidableEq, Repr

/-- The next-pc select, R72's column `npc`. -/
inductive NpcSel where
  | seq1
  | seq2
  | jal
  | jsh
  | br
  deriving DecidableEq, Repr

/-- The decoder's control signals (R72). `cmp` is the part of the column `alu` that names a comparator function. -/
structure Controls where
  len : Nat
  alu : Option (AluFn × AluInputs)
  cmp : Option Cond
  wb : Option WbSel
  mem : Option MemSel
  npc : NpcSel
  deriving DecidableEq, Repr

/-- A register ALU row of R72. -/
def Controls.regAlu (f : AluFn) : Controls := ⟨1, some (f, .vdVs), none, some .alu, none, .seq1⟩

/-- An immediate ALU row of R72. -/
def Controls.immAlu (f : AluFn) : Controls := ⟨2, some (f, .vsImm), none, some .alu, none, .seq2⟩

/-- A conditional branch row of R72. -/
def Controls.branch (c : Cond) : Controls := ⟨2, none, some c, none, none, .br⟩

/-- The rows of R72 of the assigned opcodes; none for the 38 others. -/
def assignedControls (op : BitVec 6) : Option Controls :=
  match op.toNat with
  | 0 => some (.regAlu .add)
  | 1 => some (.regAlu .sub)
  | 2 => some (.regAlu .and)
  | 3 => some (.regAlu .or)
  | 4 => some (.regAlu .xor)
  | 5 => some (.regAlu .shiftL)
  | 6 => some (.regAlu .shiftR)
  | 7 => some (.regAlu .shiftA)
  | 8 => some (.immAlu .add)
  | 10 => some (.immAlu .and)
  | 11 => some (.immAlu .or)
  | 12 => some (.immAlu .xor)
  | 13 => some (.immAlu .shiftL)
  | 15 => some (.immAlu .shiftA)
  | 16 => some ⟨1, none, none, some .mem, some (.read .vs), .seq1⟩
  | 17 => some ⟨1, none, none, none, some (.write .vs), .seq1⟩
  | 24 => some ⟨2, some (.add, .vsImm), none, some .mem, some (.read .alu), .seq2⟩
  | 25 => some ⟨2, some (.add, .vsImm), none, none, some (.write .alu), .seq2⟩
  | 40 => some ⟨2, some (.add, .vsImm), none, some .link, none, .jal⟩
  | 41 => some ⟨1, none, none, none, none, .jsh⟩
  | 42 => some (.branch .eq)
  | 43 => some (.branch .ne)
  | 44 => some (.branch .ltS)
  | 45 => some (.branch .geS)
  | 46 => some (.branch .ltU)
  | 47 => some (.branch .geU)
  | _ => none

/-- R72's last row, "other (38)": an unassigned opcode under the policy `nop`. -/
def unassignedControls : Controls := ⟨1, none, none, none, none, .seq1⟩

/-- The control signals of every opcode (R72). -/
def controls (op : BitVec 6) : Controls := (assignedControls op).getD unassignedControls

/-- The ALU (R73) and the shifter (R75). -/
def AluFn.apply (e : ShiftEnv) : AluFn → Word → Word → Word
  | .add, a, b => aluAdd a b
  | .sub, a, b => aluSub a b
  | .and, a, b => aluAnd a b
  | .or, a, b => aluOr a b
  | .xor, a, b => aluXor a b
  | .shiftL, a, b => shlL e a b
  | .shiftR, a, b => shlR e a b
  | .shiftA, a, b => shlA e a b

/-- What the fetch and decode phases hold for the rest of the step (R70, R71): the two latches and the two register reads. -/
structure Latches where
  iw : Word
  imm : Word
  vs : Word
  vd : Word
  deriving DecidableEq, Repr

/-- The fetch and decode phases (R70, R71). -/
def State.latches (s : State) : Latches :=
  let iw := s.memRead s.pc
  { iw := iw, imm := s.memRead (s.pc + 1#16), vs := s.reg (fieldS iw), vd := s.reg (fieldD iw) }

/-- The control signals of the word at pc. -/
def State.controls (s : State) : Controls := Machine.controls (fieldOp s.latches.iw)

/-- The ALU's output; 0x0000 where R72 names no function, and nothing reads it there. -/
def State.aluOut (s : State) : Word :=
  let l := s.latches
  match s.controls.alu with
  | some (f, .vdVs) => f.apply s.shiftEnv l.vd l.vs
  | some (f, .vsImm) => f.apply s.shiftEnv l.vs l.imm
  | none => 0x0000#16

/-- The comparator's bit (R77); 0 where R72 names no function, and nothing reads it there. -/
def State.cmpBit (s : State) : Bool :=
  match s.controls.cmp with
  | some c => c.holds s.latches.vd s.latches.vs
  | none => false

/-- The data address (R79). -/
def State.dataAddr (s : State) : AddrSel → Word
  | .vs => s.latches.vs
  | .alu => s.aluOut

/-- The word the data read returns (R78 `MEM`). -/
def State.dataRead (s : State) : Word :=
  match s.controls.mem with
  | some (.read a) => s.memRead (s.dataAddr a)
  | _ => 0x0000#16

/-- The result multiplexer (R78): the register write data, none where no register is written. -/
def State.wbData (s : State) : Option Word :=
  match s.controls.wb with
  | some .alu => some s.aluOut
  | some .mem => some s.dataRead
  | some .link => some (s.pc + 2#16)
  | none => none

/-- The next-pc multiplexer (R80). -/
def State.npc (s : State) : Word :=
  match s.controls.npc with
  | .seq1 => s.pc + 1#16
  | .seq2 => s.pc + 2#16
  | .jal => s.aluOut
  | .jsh => s.pc + (fieldOff s.latches.iw).signExtend 16
  | .br => if s.cmpBit then s.latches.imm else s.pc + 2#16

/-- The data write of R79, none where nothing is stored: the address and the store data `vd`. -/
def State.dataWrite (s : State) : Option (Word × Word) :=
  match s.controls.mem with
  | some (.write a) => some (s.dataAddr a, s.latches.vd)
  | _ => none

/-- Write-back (R78, R81): at most one register write, to D, and at most one memory write; the pc update last. -/
def State.writeBack (s : State) : State :=
  let s₁ := match s.wbData with
    | some v => s.setReg (fieldD s.latches.iw) v
    | none => s
  let s₂ := match s.dataWrite with
    | some (a, v) => s₁.memWrite a v
    | none => s₁
  s₂.finish s.npc

/-- The step as the datapath computes it (R82); an unassigned opcode has no meaning under `UNASSIGNED_POLICY = refuse`
(R121). -/
def datapathStep (s : State) : Result :=
  let op := fieldOp s.latches.iw
  if assignedControls op = none ∧ s.cfg.unassigned = .refuse then .refused (.unassignedOpcode op)
  else .next s.writeBack

/-- A memory transaction of the block's interface (R47): one word at one word address (R34). -/
inductive Transaction where
  | read (a v : Word)
  | write (a v : Word)
  deriving DecidableEq, Repr

/-- The transactions of one step, in their fixed order (R47, D2): `IF0`, `IF1`, then at most one data transaction. -/
def State.transactions (s : State) : List Transaction :=
  let data := match s.controls.mem with
    | some (.read a) => [Transaction.read (s.dataAddr a) s.dataRead]
    | some (.write a) => [Transaction.write (s.dataAddr a) s.latches.vd]
    | none => []
  .read s.pc s.latches.iw :: .read (s.pc + 1#16) s.latches.imm :: data

/-- What a transaction does to memory: a read nothing (R38), a write sets its cell (R34). -/
def Transaction.apply (s : State) : Transaction → State
  | .read _ _ => s
  | .write a v => s.memWrite a v

end Sys2Proof.Machine
end

