-- ==== Sys2Proof/Safety.lean ====
section
/-!
DEFINITION. What claims are stated in: the invariant of the state, what a step may change (the frames), quiescent states and
the end of a run (40_step.md R88, R89).
-/

namespace Sys2Proof.Machine

/-- The invariant of the model's state: the memory list is canonical, and under `RESET_CONTENTS = zero` every register holds
a specified value (R28, R29). Every step and every operation of the boundary keeps it. -/
abbrev State.Inv (s : State) : Prop :=
  s.mem.wf s.cfg.resetContents ∧ (s.cfg.resetContents = .zero → s.unwritten = [])

/-- The model's own fields from `s` to `t`, which are no state of the spec's (log entries 2 and 4): the parameters stand, and
so does the draw index where the machine draws no free values. -/
def State.OwnFieldsStand (s t : State) : Prop :=
  t.cfg = s.cfg ∧ (s.cfg.draws = false → t.draws = s.draws)

/-- From `s` to `t` the pc becomes `p`, every register holds what it held and every memory cell holds what it held. -/
def State.OnlyPc (s t : State) (p : Word) : Prop :=
  t.pc = p ∧ (∀ j, t.reg? j = s.reg? j) ∧ (∀ a, t.cell? a = s.cell? a) ∧ s.OwnFieldsStand t

/-- From `s` to `t` the pc becomes `p`, the register `rd` holds `v` (a write to r0 is discarded, R17), every other register
holds what it held and every memory cell holds what it held. -/
def State.OnlyRegister (s t : State) (rd : RegIdx) (v p : Word) : Prop :=
  t.pc = p ∧ (∀ j, t.reg? j = if j = rd ∧ rd ≠ 0#5 then some v else s.reg? j) ∧ (∀ a, t.cell? a = s.cell? a)
    ∧ s.OwnFieldsStand t

/-- From `s` to `t` the pc becomes `p`, the memory cell at `a` holds `v`, every other cell holds what it held and every
register holds what it held. -/
def State.OnlyCell (s t : State) (a v p : Word) : Prop :=
  t.pc = p ∧ (∀ j, t.reg? j = s.reg? j) ∧ (∀ b, t.cell? b = if b = a then some v else s.cell? b)
    ∧ s.OwnFieldsStand t

end Sys2Proof.Machine

namespace Sys2Proof

/-- The address an instruction stores to in the state `s`, none where it stores nothing (R79). -/
def Instr.storeAddress (i : Instr) (s : Machine.State) : Option Word :=
  match i with
  | .st _ rs => some (s.eaReg rs)
  | .stio _ rs imm => some (s.eaOffset rs imm)
  | _ => none

/-- The data transaction of an instruction (R47, third item): a read for LD and LDIO, a write for ST and STIO, none for every
other. -/
def Instr.dataTransaction (i : Instr) (s : Machine.State) : Option Machine.Transaction :=
  match i with
  | .ld _ rs => some (.read (s.reg rs) (s.memRead (s.reg rs)))
  | .st rd rs => some (.write (s.reg rs) (s.reg rd))
  | .ldio _ rs imm => some (.read (s.reg rs + imm) (s.memRead (s.reg rs + imm)))
  | .stio rd rs imm => some (.write (s.reg rs + imm) (s.reg rd))
  | _ => none

end Sys2Proof

namespace Sys2Proof.Machine

/-- `t` is the state `s` but for the index of the next free value, which is no state of the spec's (R15; log entry 4). -/
abbrev State.SameButDraws (s t : State) : Prop := { t with draws := s.draws } = s

/-- A quiescent state (R89): a state that a step maps to itself, whatever free values are drawn from then on (log entry 21).
Under the default parameters none is drawn. -/
def State.Quiescent (s : State) : Prop := ∀ n, ∃ t, step { s with draws := n } = .next t ∧ s.SameButDraws t

/-- The three cases of R89: the instruction at pc is JSH with offset 0, a taken branch whose immediate is pc, or a JAL whose
target is pc and whose link write changes nothing. -/
def State.LoopsInPlace (s : State) : Prop :=
  match s.fetch with
  | .jsh off => off = 0
  | .beq rd rs imm => s.reg rd = s.reg rs ∧ imm = s.pc
  | .bne rd rs imm => s.reg rd ≠ s.reg rs ∧ imm = s.pc
  | .blt rd rs imm => (s.reg rd).toInt < (s.reg rs).toInt ∧ imm = s.pc
  | .bge rd rs imm => (s.reg rs).toInt ≤ (s.reg rd).toInt ∧ imm = s.pc
  | .bltu rd rs imm => (s.reg rd).toNat < (s.reg rs).toNat ∧ imm = s.pc
  | .bgeu rd rs imm => (s.reg rs).toNat ≤ (s.reg rd).toNat ∧ imm = s.pc
  | .jal rd rs imm => s.reg rs + imm = s.pc ∧ (rd = 0#5 ∨ s.reg rd = s.pc + 2#16)
  | _ => False

/-- The end of a run (R89, D8): within the budget of `fuel` steps the run from `s` reaches the quiescent state `t`. -/
def State.EndsAt (s : State) (fuel : Nat) (t : State) : Prop :=
  Sys2Proof.core.run fuel s = .next t ∧ t.Quiescent

end Sys2Proof.Machine
end

