-- ==== Sys2Proof/Certificates/Slice0/Obligations.lean ====
section
/-!
DEFINITION. The statements for the provers, one `Obligations.<Name>` each; OBLIGATIONS.json lists them. First the few words
they share. Two things in them are the model's and no rule's: the frames also say that the model's own fields stand
(`OwnFieldsStand`; log entries 2 and 4), and `reg` and `memRead` give a free value, of which nothing is said, for a register
or cell that holds no specified value under `RESET_CONTENTS = unspecified` (log entry 5).
-/

namespace Sys2Proof.Claims

open Sys2Proof.Machine

/-- The 38 unassigned opcodes, as R54 lists them. -/
def unassignedOpcodes : List Nat :=
  [9, 14] ++ List.range' 18 6 ++ List.range' 26 14 ++ List.range' 48 16

/-- The opcodes of the two-word instructions, as R55 lists them. -/
def twoWordOpcodes : List Nat := [8, 10, 11, 12, 13, 15, 24, 25, 40, 42, 43, 44, 45, 46, 47]

/-- Format R with the opcode `op` (R57): one word, `S × 2048 + D × 64 + OP`. -/
def FormatR (i : Instr) (rd rs : RegIdx) (op : Nat) : Prop :=
  encode i = [BitVec.ofNat 16 (rs.toNat * 2048 + rd.toNat * 64 + op)]

/-- Format I with the opcode `op` (R57): the word `S × 2048 + D × 64 + OP` and then the immediate. -/
def FormatI (i : Instr) (rd rs : RegIdx) (imm : Word) (op : Nat) : Prop :=
  encode i = [BitVec.ofNat 16 (rs.toNat * 2048 + rd.toNat * 64 + op), imm]

/-- `shl(v, m) = (v × 2^m) mod 2^16` (R74). -/
def leftBy (v : Word) (m : Nat) : Word := BitVec.ofNat 16 (v.toNat * 2 ^ m)

/-- `lsr(v, m) = floor(v / 2^m)` (R74). -/
def rightBy (v : Word) (m : Nat) : Word := BitVec.ofNat 16 (v.toNat / 2 ^ m)

/-- `asr(v, m) = floor(sint(v) / 2^m) mod 2^16` (R74). -/
def signedRightBy (v : Word) (m : Nat) : Word := BitVec.ofInt 16 (v.toInt / 2 ^ m)

/-- `r` is the value `v` shifted by the signed amount in `b` (R75): `fwd` for a positive amount, else `bwd`; by its magnitude
up to 15, by its magnitude or its magnitude mod 16 beyond that under `full` or `mod16`, and any word beyond that under `any`
(R76). -/
def IsShift (oor : ShiftOor) (fwd bwd : Word → Nat → Word) (v b r : Word) : Prop :=
  let m := b.toInt.natAbs
  let f := if 0 < b.toInt then fwd else bwd
  (m ≤ 15 → r = f v m) ∧ (16 ≤ m → oor = .full → r = f v m) ∧ (16 ≤ m → oor = .mod16 → r = f v (m % 16))

/-- Running `i` from `s` completes with only the pc changed, to `p`. -/
def Jumps (i : Instr) (s : State) (p : Word) : Prop := ∃ t, exec i s = .next t ∧ s.OnlyPc t p

/-- Running `i` from `s` completes with `v` written to `rd` and the pc `p`, and nothing else changed. -/
def Writes (i : Instr) (s : State) (rd : RegIdx) (v p : Word) : Prop := ∃ t, exec i s = .next t ∧ s.OnlyRegister t rd v p

/-- Running `i` from `s` completes with `v` stored at `a` and the pc `p`, and nothing else changed. -/
def Stores (i : Instr) (s : State) (a v p : Word) : Prop := ∃ t, exec i s = .next t ∧ s.OnlyCell t a v p

/-- Running the pseudo-instruction's expansion (R68). -/
def expands (m : String) (os : List Operand) (P : Instr → Prop) : Prop := ∃ i, parsePseudo m os = some i ∧ P i

end Sys2Proof.Claims

open Sys2Proof Sys2Proof.Machine Sys2Proof.Claims

/-! ## Encoding -/

/-- Decoding the words of a well-formed instruction, whatever follows them, gives that instruction and what follows. -/
def Obligations.DecodeOfEncodeIsTheInstruction : Prop :=
  ∀ (i : Instr) (rest : List Word), i.wellFormed = true → decodeStream (encode i ++ rest) = .ok (i, rest)

/-- Every word decodes to a well-formed instruction whose instruction word is that word again and whose immediate, if it has
one, is the word that followed: no two words decode alike and no bit is dropped. -/
def Obligations.EncodeOfDecodeIsTheWord : Prop :=
  ∀ iw imm : Word, (decode iw imm).wellFormed = true ∧ encodeWord (decode iw imm) = iw ∧
    ((decode iw imm).immediate = none ∨ (decode iw imm).immediate = some imm)

/-- R57 (derived by the spec): an instruction's words are those of the field sum, JSH's is `((o mod 1024) × 64) + 41`, and
an immediate follows; with the rule's two examples. -/
def Obligations.InstructionWordIsTheFieldSum : Prop :=
  (∀ iw imm : Word, (fieldOp iw).toNat ≠ 41 →
    (encodeWord (decode iw imm)).toNat
      = (fieldS iw).toNat * 2048 + (fieldD iw).toNat * 64 + (decode iw imm).opcode.toNat) ∧
  (∀ off : Int, -512 ≤ off → off ≤ 511 →
    encode (.jsh off) = [BitVec.ofNat 16 ((off % 1024).toNat * 64 + 41)]) ∧
  (∀ i imm, i.immediate = some imm → encode i = [encodeWord i, imm]) ∧
  encode (.addi 1 0 0x0005) = [0x0048, 0x0005] ∧ encode (.beq 1 0 0x0010) = [0x006A, 0x0010]

/-- R48, R49: the fields are the bits [15:11], [10:6], [5:0] and [15:6] of the word, as numbers, and `OFF = {S, D}` with bit
15 as its sign. -/
def Obligations.FieldsAreTheBitsOfTheWord : Prop :=
  ∀ iw : Word, (fieldS iw).toNat = iw.toNat / 2048 ∧ (fieldD iw).toNat = iw.toNat / 64 % 32 ∧
    (fieldOp iw).toNat = iw.toNat % 64 ∧ (fieldOff iw).toNat = (fieldS iw).toNat * 32 + (fieldD iw).toNat ∧
    (fieldOff iw).msb = iw.getLsbD 15 ∧
    ((fieldOp iw).toNat = 41 → ∀ imm, decode iw imm = .jsh (fieldOff iw).toInt)

/-- R55: an instruction has two words exactly when its opcode is one of the fifteen listed, and one otherwise. -/
def Obligations.LengthDependsOnTheOpcodeAlone : Prop :=
  (∀ iw imm : Word, (decode iw imm).length = if iw.toNat % 64 ∈ twoWordOpcodes then 2 else 1) ∧
  (∀ i : Instr, (encode i).length = i.length)

/-- Each word decodes to the map entry of its own OP, and that entry is unassigned exactly for the 38 opcodes listed. -/
def Obligations.EveryWordIsTheMapEntryOfItsOpcode : Prop :=
  ∀ iw imm : Word, (decode iw imm).opcode.toNat = iw.toNat % 64 ∧
    ((decode iw imm).isUnassigned = true ↔ iw.toNat % 64 ∈ unassignedOpcodes)

/-- A few words written out from the spec's encodings, one of each format and family. -/
def Obligations.WordsFromTheSpecDecode : Prop :=
  decode 0x1040 0 = .add 1 2 ∧ decode 0x104D 0xFFFD = .sfti 1 2 0xFFFD ∧ decode 0x1051 0 = .st 1 2 ∧
  decode 0x1058 0x0010 = .ldio 1 2 0x0010 ∧ decode 0x2968 0x0004 = .jal 5 5 0x0004 ∧ decode 0x8069 0 = .jsh (-511) ∧
  decode 0x106F 0x0040 = .bgeu 1 2 0x0040 ∧ decode 0xFFF2 0 = .unassigned50 0x3FF

/-- R53: the offset of a JSH word is the signed value of its ten bits, -512 to 511, and the jump adds the sign-extended field
to the pc mod 2^16; with the rule's three checks, on the words that hold those bits. -/
def Obligations.ShortJumpOffsetIsSignExtended : Prop :=
  (∀ (iw imm : Word) (s : State), iw.toNat % 64 = 41 → ∃ off t, decode iw imm = .jsh off ∧
    off = (fieldOff iw).toInt ∧ -512 ≤ off ∧ off ≤ 511 ∧
    exec (.jsh off) s = .next t ∧ t.pc = s.pc + (fieldOff iw).signExtend 16) ∧
  (∀ imm : Word, decode (0b0000000010#10 ++ 41#6) imm = .jsh 2 ∧ decode (0b1111111110#10 ++ 41#6) imm = .jsh (-2) ∧
    decode (0b1000000001#10 ++ 41#6) imm = .jsh (-511))

/-- The source line of a well-formed instruction assembles to the words of that instruction: no operand is lost in R62's
source form. -/
def Obligations.SourceLineAssemblesToTheWords : Prop :=
  ∀ i : Instr, i.wellFormed = true → assemble i.source = some (encode i)

/-! ## The step -/

/-- A step runs the instruction that the words at pc and pc + 1 decode to, and does nothing around it. -/
def Obligations.StepRunsTheDecodedInstruction : Prop :=
  ∀ (s : State) (i : Instr), decode (s.memRead s.pc) (s.memRead (s.pc + 1#16)) = i → i.wellFormed = true →
    step s = exec i s

/-- Where memory holds the words of a well-formed instruction at pc, a step runs that instruction. -/
def Obligations.StepRunsTheEncodedInstruction : Prop :=
  ∀ (s : State) (i : Instr), i.wellFormed = true → s.memRead s.pc = encodeWord i →
    (∀ imm, i.immediate = some imm → s.memRead (s.pc + 1#16) = imm) → step s = exec i s

/-- After placing the words of the bits `w` at pc, the very next step runs the instruction they decode to. -/
def Obligations.PlacedWordsRunNext : Prop :=
  ∀ (s : State) (nbits w : Nat) (i : Instr), decodeTableWord nbits w = some i →
    step (s.withFetchWord nbits w) = exec i (s.withFetchWord nbits w)

/-! ## Results and frames, family by family -/

/-- R91, R92: ADD and SUB, mod 2^16, the destination's register the left operand; and R92's round trip: with another source
register than the destination (or destination r0) SUB after ADD gives the destination its value back. -/
def Obligations.AddAndSubtractWrap : Prop :=
  ∀ (rd rs : RegIdx) (s : State),
    FormatR (.add rd rs) rd rs 0 ∧ FormatR (.sub rd rs) rd rs 1 ∧
    Writes (.add rd rs) s rd (BitVec.ofNat 16 ((s.reg rd).toNat + (s.reg rs).toNat)) (s.pc + 1#16) ∧
    Writes (.sub rd rs) s rd (BitVec.ofInt 16 ((s.reg rd).toNat - (s.reg rs).toNat)) (s.pc + 1#16) ∧
    ∀ t, exec (.add rd rs) s = .next t → (s.reg? rs).isSome → rs ≠ rd ∨ rd = 0#5 →
      Writes (.sub rd rs) t rd (s.reg rd) (t.pc + 1#16)

/-- R93, R94, R95: AND, OR and XOR, bit by bit. -/
def Obligations.RegisterLogicIsBitwise : Prop :=
  ∀ (rd rs : RegIdx) (s : State),
    FormatR (.and rd rs) rd rs 2 ∧ FormatR (.or rd rs) rd rs 3 ∧ FormatR (.xor rd rs) rd rs 4 ∧
    (∃ v, Writes (.and rd rs) s rd v (s.pc + 1#16) ∧ ∀ k, v.getLsbD k = ((s.reg rd).getLsbD k && (s.reg rs).getLsbD k)) ∧
    (∃ v, Writes (.or rd rs) s rd v (s.pc + 1#16) ∧ ∀ k, v.getLsbD k = ((s.reg rd).getLsbD k || (s.reg rs).getLsbD k)) ∧
    (∃ v, Writes (.xor rd rs) s rd v (s.pc + 1#16) ∧ ∀ k, v.getLsbD k = ((s.reg rd).getLsbD k ^^ (s.reg rs).getLsbD k))

/-- R97: SRL by the signed amount in the source register, logically right for a positive amount and left for a negative one,
for every amount and every `SHIFT_OOR`. -/
def Obligations.ShiftRightLogicalBySignedAmount : Prop :=
  ∀ (rd rs : RegIdx) (s : State),
    FormatR (.srl rd rs) rd rs 6 ∧
    ∃ r, Writes (.srl rd rs) s rd r (s.pc + 1#16) ∧ IsShift s.cfg.shiftOor rightBy leftBy (s.reg rd) (s.reg rs) r

/-- SLL and SRA by the signed amount in the source register, for every amount and every `SHIFT_OOR` (R96, R98); the kind of
the reversed shift is the spec's decision D4 (log entry 7). -/
def Obligations.ShiftLeftAndArithmeticBySignedAmount : Prop :=
  ∀ (rd rs : RegIdx) (s : State),
    FormatR (.sll rd rs) rd rs 5 ∧ FormatR (.sra rd rs) rd rs 7 ∧
    (∃ r, Writes (.sll rd rs) s rd r (s.pc + 1#16) ∧ IsShift s.cfg.shiftOor leftBy rightBy (s.reg rd) (s.reg rs) r) ∧
    (∃ r, Writes (.sra rd rs) s rd r (s.pc + 1#16) ∧ IsShift s.cfg.shiftOor signedRightBy leftBy (s.reg rd) (s.reg rs) r)

/-- R100: ADDI, mod 2^16; the old value of the destination is no operand. -/
def Obligations.AddImmediateWraps : Prop :=
  ∀ (rd rs : RegIdx) (imm : Word) (s : State),
    FormatI (.addi rd rs imm) rd rs imm 8 ∧
    Writes (.addi rd rs imm) s rd (BitVec.ofNat 16 ((s.reg rs).toNat + imm.toNat)) (s.pc + 2#16)

/-- R101, R102, R103: ANDI, ORI and XORI, bit by bit, the immediate with no extension. -/
def Obligations.ImmediateLogicIsBitwise : Prop :=
  ∀ (rd rs : RegIdx) (imm : Word) (s : State),
    FormatI (.andi rd rs imm) rd rs imm 10 ∧ FormatI (.ori rd rs imm) rd rs imm 11 ∧
    FormatI (.xori rd rs imm) rd rs imm 12 ∧
    (∃ v, Writes (.andi rd rs imm) s rd v (s.pc + 2#16) ∧ ∀ k, v.getLsbD k = ((s.reg rs).getLsbD k && imm.getLsbD k)) ∧
    (∃ v, Writes (.ori rd rs imm) s rd v (s.pc + 2#16) ∧ ∀ k, v.getLsbD k = ((s.reg rs).getLsbD k || imm.getLsbD k)) ∧
    (∃ v, Writes (.xori rd rs imm) s rd v (s.pc + 2#16) ∧ ∀ k, v.getLsbD k = ((s.reg rs).getLsbD k ^^ imm.getLsbD k))

/-- SFTI and SRAI by the signed immediate, for every amount and every `SHIFT_OOR` (R104, R105); the kind of the reversed
shift is the spec's decision D4 (log entry 7). -/
def Obligations.ImmediateShiftsBySignedAmount : Prop :=
  ∀ (rd rs : RegIdx) (imm : Word) (s : State),
    FormatI (.sfti rd rs imm) rd rs imm 13 ∧ FormatI (.srai rd rs imm) rd rs imm 15 ∧
    (∃ r, Writes (.sfti rd rs imm) s rd r (s.pc + 2#16) ∧ IsShift s.cfg.shiftOor leftBy rightBy (s.reg rs) imm r) ∧
    (∃ r, Writes (.srai rd rs imm) s rd r (s.pc + 2#16) ∧ IsShift s.cfg.shiftOor signedRightBy leftBy (s.reg rs) imm r)

/-- R107, R109: LD and LDIO read one word of memory into the destination. -/
def Obligations.LoadsReadOneWord : Prop :=
  ∀ (rd rs : RegIdx) (imm : Word) (s : State),
    FormatR (.ld rd rs) rd rs 16 ∧ FormatI (.ldio rd rs imm) rd rs imm 24 ∧
    Writes (.ld rd rs) s rd (s.memRead (s.reg rs)) (s.pc + 1#16) ∧
    Writes (.ldio rd rs imm) s rd (s.memRead (BitVec.ofNat 16 ((s.reg rs).toNat + imm.toNat))) (s.pc + 2#16)

/-- R108, R110: ST and STIO write the destination field's register to one cell of memory, and no register. -/
def Obligations.StoresWriteOneWord : Prop :=
  ∀ (rd rs : RegIdx) (imm : Word) (s : State),
    FormatR (.st rd rs) rd rs 17 ∧ FormatI (.stio rd rs imm) rd rs imm 25 ∧
    Stores (.st rd rs) s (s.reg rs) (s.reg rd) (s.pc + 1#16) ∧
    Stores (.stio rd rs imm) s (BitVec.ofNat 16 ((s.reg rs).toNat + imm.toNat)) (s.reg rd) (s.pc + 2#16)

/-- JAL links pc + 2 and jumps to the source plus the immediate (R112); where source and destination agree it is the OLD
source, the spec's decision D7 (log entry 10). -/
def Obligations.JumpAndLink : Prop :=
  ∀ (rd rs : RegIdx) (imm : Word) (s : State),
    FormatI (.jal rd rs imm) rd rs imm 40 ∧
    Writes (.jal rd rs imm) s rd (BitVec.ofNat 16 (s.pc.toNat + 2)) (BitVec.ofNat 16 ((s.reg rs).toNat + imm.toNat))

/-- R113: JSH jumps relative to its own address, mod 2^16, for every word with its opcode. -/
def Obligations.ShortJumpIsRelativeToItself : Prop :=
  (∀ iw imm : Word, iw.toNat % 64 = 41 → ∃ off, decode iw imm = .jsh off ∧ off = (fieldOff iw).toInt) ∧
  (∀ off : Int, -512 ≤ off → off ≤ 511 → encode (.jsh off) = [BitVec.ofNat 16 ((off % 1024).toNat * 64 + 41)]) ∧
  (∀ (off : Int) (s : State), Jumps (.jsh off) s (BitVec.ofInt 16 (s.pc.toNat + off)))

/-- R114, R115: BEQ and BNE. -/
def Obligations.EqualityBranches : Prop :=
  ∀ (rd rs : RegIdx) (imm : Word) (s : State),
    FormatI (.beq rd rs imm) rd rs imm 42 ∧ FormatI (.bne rd rs imm) rd rs imm 43 ∧
    Jumps (.beq rd rs imm) s (if s.reg rd = s.reg rs then imm else s.pc + 2#16) ∧
    Jumps (.bne rd rs imm) s (if s.reg rd ≠ s.reg rs then imm else s.pc + 2#16)

/-- R116, R117: BLT and BGE compare two's-complement values. -/
def Obligations.SignedBranches : Prop :=
  ∀ (rd rs : RegIdx) (imm : Word) (s : State),
    FormatI (.blt rd rs imm) rd rs imm 44 ∧ FormatI (.bge rd rs imm) rd rs imm 45 ∧
    Jumps (.blt rd rs imm) s (if (s.reg rd).toInt < (s.reg rs).toInt then imm else s.pc + 2#16) ∧
    Jumps (.bge rd rs imm) s (if (s.reg rd).toInt ≥ (s.reg rs).toInt then imm else s.pc + 2#16)

/-- R118, R119: BLTU and BGEU compare unsigned values. -/
def Obligations.UnsignedBranches : Prop :=
  ∀ (rd rs : RegIdx) (imm : Word) (s : State),
    FormatI (.bltu rd rs imm) rd rs imm 46 ∧ FormatI (.bgeu rd rs imm) rd rs imm 47 ∧
    Jumps (.bltu rd rs imm) s (if (s.reg rd).toNat < (s.reg rs).toNat then imm else s.pc + 2#16) ∧
    Jumps (.bgeu rd rs imm) s (if (s.reg rd).toNat ≥ (s.reg rs).toNat then imm else s.pc + 2#16)

/-- Under `UNASSIGNED_POLICY = nop` (R120; the spec's decision D5, log entry 3) each of the 38 unassigned instructions
(`unassigned09`, `unassigned14`, `unassigned18` to `unassigned23`, `unassigned26` to `unassigned39`, `unassigned48` to
`unassigned63`) completes, advancing the pc by 1 and changing nothing else, whatever its ignored bits. -/
def Obligations.UnassignedOpcodesAreNoOps : Prop :=
  ∀ (i : Instr) (s : State), i.isUnassigned = true → s.cfg.unassigned = .nop → Jumps i s (s.pc + 1#16)

/-- Under `UNASSIGNED_POLICY = refuse` (R121; the spec's decision D5, log entry 3) each of the 38 unassigned instructions is
refused, and so is the step that fetches one. -/
def Obligations.UnassignedOpcodesAreRefused : Prop :=
  (∀ (i : Instr) (s : State), i.isUnassigned = true → s.cfg.unassigned = .refuse →
    exec i s = .refused (.unassignedOpcode i.opcode)) ∧
  (∀ s : State, (s.memRead s.pc).toNat % 64 ∈ unassignedOpcodes → s.cfg.unassigned = .refuse →
    step s = .refused (.unassignedOpcode (fieldOp (s.memRead s.pc))))

/-- R59 (derived by the spec): the encodings without effect other than the pc's advance: destination r0 in the ALU families
and in loads, JAL with D = 0 to pc + 2, a branch whose target is pc + 2; and the word 0x0000 is `ADD r0, r0` whatever the
policy. -/
def Obligations.EncodingsWithoutEffect : Prop :=
  (∀ (i : Instr) (s : State), i.target = some 0#5 →
    (∀ rd rs imm, i = .jal rd rs imm → s.reg rs + imm = s.pc + 2#16) → Jumps i s (s.pc + BitVec.ofNat 16 i.length)) ∧
  (∀ (rd rs : RegIdx) (s : State), ∀ i ∈ [Instr.beq rd rs (s.pc + 2#16), .bne rd rs (s.pc + 2#16), .blt rd rs (s.pc + 2#16),
    .bge rd rs (s.pc + 2#16), .bltu rd rs (s.pc + 2#16), .bgeu rd rs (s.pc + 2#16)], Jumps i s (s.pc + 2#16)) ∧
  (∀ (s : State), s.memRead s.pc = 0x0000#16 → step s = exec (.add 0#5 0#5) s ∧ Jumps (.add 0#5 0#5) s (s.pc + 1#16))

/-- R68 (the spec's decision D13): each pseudo-instruction expands to a real one with the effect the table gives it. -/
def Obligations.PseudoInstructionsHaveTheirEffect : Prop :=
  ∀ (a b : RegIdx) (w : Word) (s : State),
    expands "NOP" [] (fun i => Jumps i s (s.pc + 1#16)) ∧
    expands "LI" [.reg a, .num false w] (fun i => Writes i s a w (s.pc + 2#16)) ∧
    expands "MOV" [.reg a, .reg b] (fun i => Writes i s a (s.reg b) (s.pc + 2#16)) ∧
    expands "CLR" [.reg a] (fun i => Writes i s a 0x0000#16 (s.pc + 1#16)) ∧
    expands "NOT" [.reg a, .reg b] (fun i => Writes i s a (~~~ s.reg b) (s.pc + 2#16)) ∧
    expands "J" [.num false w] (fun i => Jumps i s w) ∧
    expands "JR" [.reg a] (fun i => Jumps i s (s.reg a)) ∧
    expands "CALL" [.reg a, .num false w] (fun i => Writes i s a (s.pc + 2#16) w) ∧
    expands "RET" [.reg a] (fun i => Jumps i s (s.reg a)) ∧
    expands "B" [.num false w] (fun i => Jumps i s w) ∧
    expands "BGT" [.reg a, .reg b, .num false w]
      (fun i => Jumps i s (if (s.reg a).toInt > (s.reg b).toInt then w else s.pc + 2#16)) ∧
    expands "BLE" [.reg a, .reg b, .num false w]
      (fun i => Jumps i s (if (s.reg a).toInt ≤ (s.reg b).toInt then w else s.pc + 2#16)) ∧
    expands "BGTU" [.reg a, .reg b, .num false w]
      (fun i => Jumps i s (if (s.reg a).toNat > (s.reg b).toNat then w else s.pc + 2#16)) ∧
    expands "BLEU" [.reg a, .reg b, .num false w]
      (fun i => Jumps i s (if (s.reg a).toNat ≤ (s.reg b).toNat then w else s.pc + 2#16)) ∧
    expands "HALT" [] (fun i => Jumps i s s.pc)

/-! ## The shifter and the branches among themselves -/

/-- R76 (the spec's decision D3, log entries 3 and 4): a shift by 16 or more under each value of `SHIFT_OOR`; the direction
still follows the sign of the amount. -/
def Obligations.OutOfRangeShifts : Prop :=
  ∀ (e : ShiftEnv) (v b : Word), 16 ≤ b.toInt.natAbs →
    (e.oor = .full → shlL e v b = 0x0000#16 ∧ shlR e v b = 0x0000#16 ∧
      shlA e v b = if 0 < b.toInt ∧ v.msb = true then 0xFFFF#16 else 0x0000#16) ∧
    (e.oor = .mod16 →
      shlL e v b = (if 0 < b.toInt then leftBy else rightBy) v (b.toInt.natAbs % 16) ∧
      shlR e v b = (if 0 < b.toInt then rightBy else leftBy) v (b.toInt.natAbs % 16) ∧
      shlA e v b = (if 0 < b.toInt then signedRightBy else leftBy) v (b.toInt.natAbs % 16)) ∧
    (e.oor = .any → shlL e v b = e.free ∧ shlR e v b = e.free ∧ shlA e v b = e.free)

/-- SLL's shifter with an amount gives what SRL's gives with the negated amount, for 0 to 15 (the document's property, R96) and
for every amount whose negation is in range. That SLL's reversed right shift is SRL's logical one is the spec's decision D4
(log entry 7); that under `any` two shifts in one state give one free value is the model's (log entry 4). -/
def Obligations.ShiftDirectionSymmetry : Prop :=
  (∀ (e : ShiftEnv) (v : Word) (k : Nat), k ≤ 15 → shlL e v (BitVec.ofNat 16 k) = shlR e v (-BitVec.ofNat 16 k)) ∧
  (∀ (e : ShiftEnv) (v b : Word), b ≠ 0x8000#16 → shlL e v b = shlR e v (-b))

/-- BNE branches exactly when BEQ does not, BGE exactly when BLT does not, BGEU exactly when BLTU does not. -/
def Obligations.OppositeBranchesSplitEveryCase : Prop :=
  ∀ (rd rs : RegIdx) (imm : Word) (s : State),
    ∀ p ∈ [(Instr.beq rd rs imm, Instr.bne rd rs imm), (.blt rd rs imm, .bge rd rs imm), (.bltu rd rs imm, .bgeu rd rs imm)],
      (Jumps p.1 s imm ∧ Jumps p.2 s (s.pc + 2#16)) ∨ (Jumps p.1 s (s.pc + 2#16) ∧ Jumps p.2 s imm)

/-- The ADD and SUB round trip with the precondition of 90_conflicts.md C4: where the source is another register than the
destination (or the destination is r0), ADD and then SUB restores every register; where they are the same, SUB leaves 0. -/
def Obligations.AddThenSubtractRestores : Prop :=
  ∀ (rd rs : RegIdx) (s t u : State), (s.reg? rd).isSome → (s.reg? rs).isSome →
    exec (.add rd rs) s = .next t → exec (.sub rd rs) t = .next u →
    (rs ≠ rd ∨ rd = 0#5 → ∀ j, u.reg? j = s.reg? j) ∧ (rs = rd → rd ≠ 0#5 → u.reg? rd = some 0x0000#16)

/-! ## The whole machine -/

/-- The invariant: every step keeps the memory canonical and, under `RESET_CONTENTS = zero`, no register unwritten; and under
every parameter choice no register and no cell that held a specified value is left without one (the model's form of the state,
log entries 1 and 5). -/
def Obligations.StepKeepsTheInvariant : Prop :=
  ∀ s t : State, step s = .next t →
    (s.Inv → t.Inv) ∧ (∀ j ∈ t.unwritten, j ∈ s.unwritten) ∧ ∀ a, (s.cell? a).isSome → (t.cell? a).isSome

/-- The state after reset meets the invariant, under every choice of the parameters. -/
def Obligations.ResetMeetsTheInvariant : Prop :=
  ∀ c : Config, (State.resetWith c).Inv

/-- Every run of steps and host operations keeps the invariant. -/
def Obligations.BoundaryRunsKeepTheInvariant : Prop :=
  ∀ (os : List BoundaryOp) (s t : State), s.Inv → runOps os s = .next t → t.Inv

/-- No step and no host operation changes the parameters: they are configuration and not state (log entry 2). -/
def Obligations.ParametersNeverChange : Prop :=
  ∀ (os : List BoundaryOp) (s t : State), runOps os s = .next t → t.cfg = s.cfg

/-- Under `UNASSIGNED_POLICY = nop` the step is total: every state, at every pc and whatever its memory holds, has a next
state. R69 says so under the default parameters; that a step completes under `RESET_CONTENTS = unspecified` too, drawing free
values, is the model's choice (R30's alternative, log entry 5). -/
def Obligations.StepIsTotalUnderNop : Prop :=
  ∀ s : State, s.cfg.unassigned = .nop → ∃ t, step s = .next t

/-- A step is refused exactly where the fetched word has an unassigned opcode under `refuse` (the spec's decision D5, log
entry 3); it never faults. That no step stops under `RESET_CONTENTS = unspecified`, where R69 and R30 let one, is the model's
choice (log entry 5). -/
def Obligations.StepIsRefusedExactlyOnUnassigned : Prop :=
  ∀ s : State, (∀ r : Refusal, step s = .refused r ↔
    s.cfg.unassigned = .refuse ∧ (s.memRead s.pc).toNat % 64 ∈ unassignedOpcodes ∧
      r = .unassignedOpcode (fieldOp (s.memRead s.pc))) ∧ ∀ f : Fault, step s ≠ .fault f

/-- The datapath of R70 to R81 (control signals of R72, ALU, multiplexers, write-back) computes the same step as the meanings
of the family rules, on every state. -/
def Obligations.DatapathComputesTheStep : Prop :=
  ∀ s : State, step s = datapathStep s

/-- R47 (its order is the spec's decision D2): a step's transactions are the two fetches and then at most one data
transaction, that of its instruction; and they account for everything the step does to memory. -/
def Obligations.TransactionsOfAStep : Prop :=
  ∀ s : State,
    s.transactions = .read s.pc (s.memRead s.pc) :: .read (s.pc + 1#16) (s.memRead (s.pc + 1#16))
      :: (s.fetch.dataTransaction s).toList ∧
    ∀ t, step s = .next t → ∀ a, t.cell? a = (s.transactions.foldl Transaction.apply s).cell? a

/-- R89 (derived by the spec): a state is quiescent exactly in the three cases of the rule, under the default parameters and
under every `SHIFT_OOR` and `UNASSIGNED_POLICY` beside them; and under every choice of the parameters a state with the word of
`HALT` at pc is quiescent, whatever free values are drawn (the model's reading, log entry 21). -/
def Obligations.QuiescentExactlyWhereItLoopsInPlace : Prop :=
  (∀ s : State, s.Inv → s.cfg.resetContents = .zero → (s.Quiescent ↔ s.LoopsInPlace)) ∧
  (∀ s : State, s.cell? s.pc = some 0x0029#16 → s.Quiescent)

/-- A stored word is seen by the next step's reads and by its fetch, as instruction word and as immediate word; and the
store, wherever it goes (into the executing instruction's own words too), is that of the instruction fetched, which then
moves on by its own length (20_memory.md R45). -/
def Obligations.StoreIsSeenByTheNextFetch : Prop :=
  ∀ (s t : State) (a v : Word), s.fetch.dataTransaction s = some (.write a v) → step s = .next t →
    t.memRead a = v ∧ (a = t.pc → t.fetch = decode v (t.memRead (t.pc + 1#16))) ∧
    (a = t.pc + 1#16 → t.fetch = decode (t.memRead t.pc) v) ∧ t.pc = s.pc + BitVec.ofNat 16 s.fetch.length

/-- R22: the pc wraps: at 0xFFFF an instruction that advances by 1 leaves pc = 0x0000; no pc and no target ever faults; and
every 16-bit value is a valid instruction address, with no alignment: a step completes there, an unassigned word acting as a
NOP (the spec's decision D5, log entry 3) and an unwritten one under `unspecified` being a free value (log entry 5). -/
def Obligations.ProgramCounterWraps : Prop :=
  (∀ s t : State, s.pc = 0xFFFF#16 → s.fetch.length = 1 → (∀ off, s.fetch ≠ .jsh off) → step s = .next t →
    t.pc = 0x0000#16) ∧
  (∀ (s : State) (f : Fault), step s ≠ .fault f) ∧
  (∀ (s : State) (p : Word), s.cfg.unassigned = .nop → ∃ t, step { s with pc := p } = .next t)

/-- Every instruction outside the control transfer family moves the pc by its own length. -/
def Obligations.PcAdvancesByTheLength : Prop :=
  ∀ (i : Instr) (s t : State), i.opcode.toNat < 40 ∨ 47 < i.opcode.toNat → exec i s = .next t →
    t.pc = s.pc + BitVec.ofNat 16 i.length

/-- Only JAL copies a pc-derived value: what any other instruction leaves in registers and memory is the same whatever the
pc. -/
def Obligations.OnlyJalCopiesThePc : Prop :=
  ∀ (i : Instr) (s t : State) (p : Word), (∀ rd rs imm, i ≠ .jal rd rs imm) → exec i s = .next t →
    ∃ t', exec i { s with pc := p } = .next t' ∧ (∀ j, t'.reg? j = t.reg? j) ∧ ∀ a, t'.cell? a = t.cell? a

/-- The table of R18: registers an instruction does not use cannot influence its result. -/
def Obligations.UnusedRegistersDoNotMatter : Prop :=
  ∀ (i : Instr) (s s' t : State), s'.pc = s.pc → s'.cfg = s.cfg → s'.draws = s.draws → s'.mem = s.mem →
    (∀ j ∈ i.uses, s'.reg? j = s.reg? j) → exec i s = .next t →
    ∃ t', exec i s' = .next t' ∧ t'.pc = t.pc ∧ t'.mem = t.mem ∧ ∀ d, i.target = some d → t'.reg? d = t.reg? d

/-- The frame of every instruction: no register but the target of R18's table, no cell but the one at the store address, and
no instruction writes both. -/
def Obligations.EveryInstructionsFrame : Prop :=
  ∀ (i : Instr) (s t : State), exec i s = .next t →
    (∀ j, i.target ≠ some j → t.reg? j = s.reg? j) ∧
    (∀ a, i.storeAddress s ≠ some a → t.cell? a = s.cell? a) ∧
    (i.target.isSome → i.storeAddress s = none) ∧ t.reg 0#5 = 0

/-- Where the parameters draw free values, each execution draws fresh ones (R76, R30): every instruction that completes and
every host read of a register or cell moves the draw index on by one, and an out-of-range shift under `any` and a read of what
holds no specified value give the free value of the index. Where they draw none, the index never moves and influences nothing.
The index is the model's own (log entries 4 and 5). -/
def Obligations.FreeValuesAreUnobservableByDefault : Prop :=
  (∀ (i : Instr) (s t : State), exec i s = .next t → t.draws = if s.cfg.draws then s.draws + 1 else s.draws) ∧
  (∀ (s : State) (j : RegIdx) (a : Word), ∀ o ∈ [BoundaryOp.readReg j, .readMem a],
    ∃ t, o.apply s = .next t ∧ t.draws = if s.cfg.draws then s.draws + 1 else s.draws) ∧
  (∀ (s : State) (v b : Word), s.cfg.shiftOor = .any → 16 ≤ b.toInt.natAbs →
    shlL s.shiftEnv v b = Config.freeShift s.draws ∧ shlR s.shiftEnv v b = Config.freeShift s.draws ∧
    shlA s.shiftEnv v b = Config.freeShift s.draws) ∧
  (∀ (s : State) (j : RegIdx), s.reg? j = none → s.reg j = Config.freeReg s.draws j) ∧
  (∀ (s : State) (a : Word), s.cell? a = none → s.memRead a = Config.freeCell s.draws a) ∧
  (∀ (s t : State) (n : Nat), s.cfg.draws = false → s.unwritten = [] → step s = .next t →
    step { s with draws := n } = .next { t with draws := n })

/-! ## Reset, memory and the boundary -/

/-- R27, R28, R29 (`RESET_CONTENTS` is the spec's decision D6, log entries 3 and 5): the pc after reset is 0x0000 whatever
the parameters; under `zero` every register and every cell holds 0x0000; under `unspecified` r1 to r31 and every cell hold
no specified value, and r0 reads 0x0000 in both. -/
def Obligations.ResetValues : Prop :=
  ∀ c : Config, (State.resetWith c).pc = 0x0000#16 ∧ (State.resetWith c).reg? 0#5 = some 0x0000#16 ∧
    (c.resetContents = .zero → (∀ j, (State.resetWith c).reg? j = some 0x0000#16) ∧
      ∀ a, (State.resetWith c).cell? a = some 0x0000#16) ∧
    (c.resetContents = .unspecified → (∀ j, j ≠ 0#5 → (State.resetWith c).reg? j = none) ∧
      ∀ a, (State.resetWith c).cell? a = none)

/-- R17: writing any value to register 0 leaves the state as it was and reading it gives 0x0000, in an instruction as by the
host, after any sequence of operations. -/
def Obligations.RegisterZeroReadsZero : Prop :=
  (∀ (s : State) (v : Word), s.setReg 0#5 v = s ∧ s.reg 0#5 = 0x0000#16) ∧
  ∀ (os : List BoundaryOp) (v : Word) (s t : State), runOps (os ++ [.writeReg 0#5 v]) s = .next t →
    runOps os s = .next t ∧ BoundaryOp.returns (.readReg 0#5) t = some 0x0000#16

/-- R84, R87 (the separate operations are the spec's decisions D1 and D9): the host reads back what it wrote, of every
register but r0, of every cell and of the pc; its reads leave registers, memory and pc as they were. -/
def Obligations.HostReadsWhatItWrote : Prop :=
  ∀ (s : State) (i : RegIdx) (a v : Word),
    (∃ t, BoundaryOp.apply (.writeReg i v) s = .next t ∧
      BoundaryOp.returns (.readReg i) t = some (if i = 0#5 then 0x0000#16 else v) ∧ s.OnlyRegister t i v s.pc) ∧
    (∃ t, BoundaryOp.apply (.writeMem a v) s = .next t ∧
      BoundaryOp.returns (.readMem a) t = some v ∧ s.OnlyCell t a v s.pc) ∧
    (∃ t, BoundaryOp.apply (.writePc v) s = .next t ∧ BoundaryOp.returns .readPc t = some v ∧ s.OnlyPc t v) ∧
    (∀ o ∈ [BoundaryOp.readReg i, .readMem a, .readPc], ∃ t, o.apply s = .next t ∧ s.OnlyPc t s.pc)

/-- The words, the registers and the pc may be written before the first step in any order (R138). -/
def Obligations.BootOrderDoesNotMatter : Prop :=
  ∀ (image : List (Word × Word)) (regs : List (RegIdx × Word)) (entry : Option Word) (s : State),
    runOps (bootOps image regs entry) s
      = runOps ((entry.map BoundaryOp.writePc).toList ++ regs.map (fun r => .writeReg r.1 r.2)
          ++ image.map (fun c => .writeMem c.1 c.2)) s

/-- Booting from reset places every word of the image at its address and nothing else, and starts at the entry, or at 0x0000
where none is given (R137). -/
def Obligations.BootPlacesTheImage : Prop :=
  ∀ (c : Config) (image : List (Word × Word)) (regs : List (RegIdx × Word)) (entry : Option Word),
    (image.map Prod.fst).Nodup → ∃ t, runOps (bootOps image regs entry) (State.resetWith c) = .next t ∧
      (∀ w ∈ image, t.memRead w.1 = w.2) ∧
      (∀ a, a ∉ image.map Prod.fst → t.cell? a = (State.resetWith c).cell? a) ∧ t.pc = entry.getD 0x0000#16

/-- The loader combines two stream bytes as high byte and low byte: `b0 × 256 + b1` (R35). -/
def Obligations.LoaderAssemblesBigEndian : Prop :=
  ∀ b0 b1 : Byte, (assembleWord b0 b1).toNat = b0.toNat * 256 + b1.toNat

/-- R86: an operation on one engine leaves every other engine as it was, and what it does to its own engine is what that
engine alone would do: no engine can observe another. -/
def Obligations.EnginesShareNoState : Prop :=
  ∀ (k : Nat) (o : BoundaryOp) (engines after : List State), applyAt k o engines = .next after →
    (∀ j, j ≠ k → after[j]? = engines[j]?) ∧
    ∀ s, engines[k]? = some s → ∃ t, o.apply s = .next t ∧ after[k]? = some t

/-- R38: a read of a cell gives the word most recently written to it, or its reset value; a read changes no register, no cell
and no pc, and a second read gives the same word; and a write of the same word twice leaves the same state as writing it
once. -/
def Obligations.MemoryIsPlainStorage : Prop :=
  (∀ (s : State) (a b v : Word), (s.memWrite a v).memRead b = if b = a then v else s.memRead b) ∧
  (∀ (s : State) (a v : Word), (s.memWrite a v).memWrite a v = s.memWrite a v) ∧
  (∀ (s : State) (a : Word), ∃ t, (BoundaryOp.readMem a).apply s = .next t ∧ s.OnlyPc t s.pc ∧
    ((s.cell? a).isSome → (BoundaryOp.readMem a).returns t = (BoundaryOp.readMem a).returns s)) ∧
  (∀ (c : Config) (a : Word), c.resetContents = .zero → (State.resetWith c).memRead a = 0x0000#16)

/-- Equal memories are equal data: two canonical lists that hold the same word at every address are the same list. -/
def Obligations.CanonicalMemoriesAreEqualData : Prop :=
  ∀ (rc : ResetContents) (m m' : Memory), m.wf rc → m'.wf rc →
    (∀ a, (Memory.lookup m a).or rc.cell = (Memory.lookup m' a).or rc.cell) → m = m'

/-- Writes to different cells may be made in either order. -/
def Obligations.WritesToDifferentCellsCommute : Prop :=
  ∀ (s : State) (a b v w : Word), s.Inv → a ≠ b →
    (s.memWrite a v).memWrite b w = (s.memWrite b w).memWrite a v
end

