-- ==== Sys2Proof/Laws/Decode.lean ====
section
/-!
SUPPORT. The fields of a word put together from its fields.
-/

namespace Sys2Proof

variable (rs rd : RegIdx) (upper : BitVec 10) (op : BitVec 6) (iw : Word) (k : Nat)

/-- The bits of `{S, D, OP}`. -/
theorem getLsbD_wordOfFields : (wordOfFields rs rd op).getLsbD k =
    if k < 6 then op.getLsbD k else if k - 6 < 5 then rd.getLsbD (k - 6) else rs.getLsbD (k - 6 - 5) := by
  have h : (wordOfFields rs rd op).getLsbD k = (rs ++ rd ++ op).getLsbD k := rfl
  rw [h, BitVec.getLsbD_append, BitVec.getLsbD_append]

/-- The bits of `{OFF, OP}`. -/
theorem getLsbD_wordOfUpper : (wordOfUpper upper op).getLsbD k =
    if k < 6 then op.getLsbD k else upper.getLsbD (k - 6) := by
  have h : (wordOfUpper upper op).getLsbD k = (upper ++ op).getLsbD k := rfl
  rw [h, BitVec.getLsbD_append]

@[simp] theorem fieldOp_wordOfFields : fieldOp (wordOfFields rs rd op) = op := by
  ext k hk; simp [fieldOp, getLsbD_wordOfFields, hk]

@[simp] theorem fieldD_wordOfFields : fieldD (wordOfFields rs rd op) = rd := by
  ext k hk; simp [fieldD, getLsbD_wordOfFields, hk]

@[simp] theorem fieldS_wordOfFields : fieldS (wordOfFields rs rd op) = rs := by
  ext k hk
  have h1 : ¬ 11 + k < 6 := by omega
  have h2 : ¬ 11 + k - 6 < 5 := by omega
  have h3 : 11 + k - 6 - 5 = k := by omega
  simp [fieldS, getLsbD_wordOfFields, h1, h2, h3, BitVec.getLsbD_eq_getElem hk]

@[simp] theorem fieldOp_wordOfUpper : fieldOp (wordOfUpper upper op) = op := by
  ext k hk; simp [fieldOp, getLsbD_wordOfUpper, hk]

@[simp] theorem fieldOff_wordOfUpper : fieldOff (wordOfUpper upper op) = upper := by
  ext k hk; simp [fieldOff, getLsbD_wordOfUpper, BitVec.getLsbD_eq_getElem hk]

/-- A word is its fields S, D and OP put together. -/
theorem wordOfFields_fields : wordOfFields (fieldS iw) (fieldD iw) (fieldOp iw) = iw := by
  ext k hk
  rw [← BitVec.getLsbD_eq_getElem, getLsbD_wordOfFields]
  simp only [fieldS, fieldD, fieldOp, BitVec.getLsbD_extractLsb']
  by_cases h : k < 6
  · simp [h, BitVec.getLsbD_eq_getElem hk]
  · by_cases h' : k - 6 < 5
    · have : 6 + (k - 6) = k := by omega
      simp [h, h', this, BitVec.getLsbD_eq_getElem hk]
    · have h1 : 11 + (k - 6 - 5) = k := by omega
      have h2 : k - 6 - 5 < 5 := by omega
      simp [h, h', h1, h2, BitVec.getLsbD_eq_getElem hk]

/-- A word is its upper ten bits and OP put together. -/
theorem wordOfUpper_fields : wordOfUpper (fieldOff iw) (fieldOp iw) = iw := by
  ext k hk
  rw [← BitVec.getLsbD_eq_getElem, getLsbD_wordOfUpper]
  simp only [fieldOff, fieldOp, BitVec.getLsbD_extractLsb']
  by_cases h : k < 6
  · simp [h, BitVec.getLsbD_eq_getElem hk]
  · have h1 : 6 + (k - 6) = k := by omega
    have h2 : k - 6 < 10 := by omega
    simp [h, h1, h2, BitVec.getLsbD_eq_getElem hk]

@[simp] theorem fieldOff_wordOfFields : fieldOff (wordOfFields rs rd op) = rs ++ rd := by
  ext k hk
  rw [← BitVec.getLsbD_eq_getElem, ← BitVec.getLsbD_eq_getElem, BitVec.getLsbD_append]
  have h1 : ¬ 6 + k < 6 := by omega
  have h2 : 6 + k - 6 = k := by omega
  simp [fieldOff, getLsbD_wordOfFields, h1, h2, hk]

/-- Decoding a word put together from its fields selects by its opcode alone. -/
theorem decode_wordOfFields (imm : Word) :
    decode (wordOfFields rs rd op) imm = decodeFields op rs rd (rs ++ rd) imm := by
  simp [decode]

/-- The same for a word put together from its upper ten bits. -/
theorem decode_wordOfUpper (imm : Word) :
    decode (wordOfUpper upper op) imm
      = decodeFields op (fieldS (wordOfUpper upper op)) (fieldD (wordOfUpper upper op)) upper imm := by
  simp [decode]

end Sys2Proof
end

