-- ==== Sys2Proof/Laws/Memory.lean ====
section
/-!
SUPPORT. The laws of the memory list: what each operation leaves at each address, and that every operation keeps the
canonical form.
-/

namespace Sys2Proof.Machine

@[simp] theorem Memory.lookup_nil (a : Nat) : Memory.lookup [] a = none := rfl

/-- Listing a cell leaves its value at its address and every other address alone. -/
theorem Memory.lookup_insert (m : Memory) (a b : Nat) (v : Word) :
    (m.insert a v).lookup b = if b = a then some v else m.lookup b := by
  induction m with
  | nil => simp [Memory.insert, Memory.lookup]
  | cons c m ih =>
    unfold Memory.insert
    split
    · simp [Memory.lookup]
    · split
      next h => subst h; by_cases hb : b = c.1 <;> simp [Memory.lookup, hb]
      next h =>
        by_cases hb : b = c.1
        · subst hb; simp [Memory.lookup, Ne.symm h]
        · simp [Memory.lookup, hb, ih]

/-- Taking an address off the list leaves every other address alone. -/
theorem Memory.lookup_erase (m : Memory) (a b : Nat) :
    (m.erase a).lookup b = if b = a then none else m.lookup b := by
  induction m with
  | nil => simp [Memory.erase]
  | cons c m ih =>
    have step : Memory.erase (c :: m) a = if c.1 = a then Memory.erase m a else c :: Memory.erase m a := by
      by_cases h : c.1 = a <;> simp [Memory.erase, h]
    rw [step]
    by_cases hc : c.1 = a
    · subst hc; simp only [if_true, ih, Memory.lookup]
      by_cases hb : b = c.1 <;> simp [hb]
    · simp only [if_neg hc, Memory.lookup, ih]
      by_cases hb : b = c.1
      · subst hb; simp [hc]
      · simp [hb]

/-- What a write leaves (R38): at its address the value written, at every other address what was there. -/
theorem Memory.lookup_write (rc : ResetContents) (m : Memory) (a b : Nat) (v : Word) :
    ((m.write rc a v).lookup b).or rc.cell = if b = a then some v else (m.lookup b).or rc.cell := by
  unfold Memory.write
  split
  next h => rw [Memory.lookup_erase]; split <;> simp [h]
  next h => rw [Memory.lookup_insert]; split <;> simp

theorem Memory.mem_insert {m : Memory} {a : Nat} {v : Word} {c : Cell} (h : c ∈ m.insert a v) :
    c = (a, v) ∨ c ∈ m := by
  induction m with
  | nil => simpa [Memory.insert] using h
  | cons d m ih =>
    unfold Memory.insert at h
    split at h
    · simpa using h
    · split at h
      · rcases List.mem_cons.1 h with h | h
        · exact .inl h
        · exact .inr (List.mem_cons_of_mem _ h)
      · rcases List.mem_cons.1 h with h | h
        · exact .inr (by simp [h])
        · exact (ih h).imp_right (List.mem_cons_of_mem _)

/-- Listing a cell keeps the addresses strictly rising. -/
theorem Memory.insert_sorted {m : Memory} (a : Nat) (v : Word) (h : m.Pairwise (fun c d => c.1 < d.1)) :
    (m.insert a v).Pairwise (fun c d => c.1 < d.1) := by
  induction m with
  | nil => simp [Memory.insert]
  | cons c m ih =>
    obtain ⟨hc, hm⟩ := List.pairwise_cons.1 h
    unfold Memory.insert
    split
    next hlt =>
      refine List.pairwise_cons.2 ⟨fun d hd => ?_, h⟩
      rcases List.mem_cons.1 hd with rfl | hd
      · exact hlt
      · exact Nat.lt_trans hlt (hc d hd)
    next hlt =>
      split
      next heq => subst heq; exact List.pairwise_cons.2 ⟨hc, hm⟩
      next hne =>
        refine List.pairwise_cons.2 ⟨fun d hd => ?_, ih hm⟩
        rcases Memory.mem_insert hd with rfl | hd
        · show c.1 < a; omega
        · exact hc d hd

/-- The empty memory, that of reset, is canonical. -/
theorem Memory.wf_nil (rc : ResetContents) : Memory.wf rc [] := by simp [Memory.wf]

/-- Listing a cell with an address of the space and a value an unlisted address does not hold keeps the canonical form. -/
theorem Memory.wf_insert {rc : ResetContents} {m : Memory} {a : Nat} {v : Word} (h : m.wf rc) (ha : a < 65536)
    (hv : rc.cell ≠ some v) : (m.insert a v).wf rc := by
  refine ⟨Memory.insert_sorted a v h.1, fun c hc => ?_⟩
  rcases Memory.mem_insert hc with rfl | hc
  · exact ⟨ha, hv⟩
  · exact h.2 c hc

/-- Taking an address off the list keeps the canonical form. -/
theorem Memory.wf_erase {rc : ResetContents} {m : Memory} (a : Nat) (h : m.wf rc) : (m.erase a).wf rc :=
  ⟨h.1.filter _, fun c hc => h.2 c (List.mem_of_mem_filter hc)⟩

/-- A write keeps the canonical form. -/
theorem Memory.wf_write {rc : ResetContents} {m : Memory} {a : Nat} (v : Word) (h : m.wf rc) (ha : a < 65536) :
    (m.write rc a v).wf rc := by
  unfold Memory.write
  split
  · exact Memory.wf_erase a h
  · exact Memory.wf_insert h ha ‹_›

end Sys2Proof.Machine
end

