-- ==== Sys2Proof/Laws/State.lean ====
section
/-!
SUPPORT. The small lemmas of the state: one per field per update, and what each update leaves in each register and cell.
-/

namespace Sys2Proof.Machine

variable (s : State) (i j : RegIdx) (a b v t n : Word)

@[simp] theorem State.memWrite_regs : (s.memWrite a v).regs = s.regs := rfl
@[simp] theorem State.memWrite_pc : (s.memWrite a v).pc = s.pc := rfl
@[simp] theorem State.memWrite_cfg : (s.memWrite a v).cfg = s.cfg := rfl
@[simp] theorem State.memWrite_draws : (s.memWrite a v).draws = s.draws := rfl
@[simp] theorem State.memWrite_unwritten : (s.memWrite a v).unwritten = s.unwritten := rfl

@[simp] theorem State.setReg_zero : s.setReg 0#5 v = s := rfl
@[simp] theorem State.setReg_mem : (s.setReg i v).mem = s.mem := by unfold State.setReg; split <;> rfl
@[simp] theorem State.setReg_pc : (s.setReg i v).pc = s.pc := by unfold State.setReg; split <;> rfl
@[simp] theorem State.setReg_cfg : (s.setReg i v).cfg = s.cfg := by unfold State.setReg; split <;> rfl
@[simp] theorem State.setReg_draws : (s.setReg i v).draws = s.draws := by unfold State.setReg; split <;> rfl

@[simp] theorem State.tick_regs : s.tick.regs = s.regs := rfl
@[simp] theorem State.tick_mem : s.tick.mem = s.mem := rfl
@[simp] theorem State.tick_pc : s.tick.pc = s.pc := rfl
@[simp] theorem State.tick_cfg : s.tick.cfg = s.cfg := rfl
@[simp] theorem State.tick_unwritten : s.tick.unwritten = s.unwritten := rfl

@[simp] theorem State.finish_regs : (s.finish t).regs = s.regs := rfl
@[simp] theorem State.finish_mem : (s.finish t).mem = s.mem := rfl
@[simp] theorem State.finish_pc : (s.finish t).pc = t := rfl
@[simp] theorem State.finish_cfg : (s.finish t).cfg = s.cfg := rfl
@[simp] theorem State.finish_unwritten : (s.finish t).unwritten = s.unwritten := rfl

@[simp] theorem State.advance_regs : (s.advance n).regs = s.regs := rfl
@[simp] theorem State.advance_mem : (s.advance n).mem = s.mem := rfl
@[simp] theorem State.advance_pc : (s.advance n).pc = s.pc + n := rfl
@[simp] theorem State.advance_cfg : (s.advance n).cfg = s.cfg := rfl
@[simp] theorem State.advance_unwritten : (s.advance n).unwritten = s.unwritten := rfl

theorem State.tick_draws : s.tick.draws = if s.cfg.draws then s.draws + 1 else s.draws := rfl
theorem State.finish_draws : (s.finish t).draws = if s.cfg.draws then s.draws + 1 else s.draws := rfl
theorem State.advance_draws : (s.advance n).draws = if s.cfg.draws then s.draws + 1 else s.draws := rfl

/-- Where the machine draws no free values, the draw index stands still. -/
theorem State.tick_eq_self (h : s.cfg.draws = false) : s.tick = s := by simp [State.tick, h]

/-- Register 0 reads as 0x0000, whatever was written (R17). -/
@[simp] theorem State.reg?_zero : s.reg? 0#5 = some 0x0000#16 := rfl
@[simp] theorem State.reg_zero : s.reg 0#5 = 0x0000#16 := rfl

@[simp] theorem State.reg?_memWrite : (s.memWrite a v).reg? j = s.reg? j := rfl
@[simp] theorem State.reg_memWrite : (s.memWrite a v).reg j = s.reg j := rfl
@[simp] theorem State.reg?_tick : s.tick.reg? j = s.reg? j := rfl
@[simp] theorem State.reg?_finish : (s.finish t).reg? j = s.reg? j := rfl
@[simp] theorem State.reg?_advance : (s.advance n).reg? j = s.reg? j := rfl

@[simp] theorem State.cell?_setReg : (s.setReg i v).cell? a = s.cell? a := by simp [State.cell?]
@[simp] theorem State.memRead_setReg : (s.setReg i v).memRead a = s.memRead a := by simp [State.memRead]
@[simp] theorem State.cell?_tick : s.tick.cell? a = s.cell? a := rfl
@[simp] theorem State.cell?_finish : (s.finish t).cell? a = s.cell? a := rfl
@[simp] theorem State.cell?_advance : (s.advance n).cell? a = s.cell? a := rfl

/-- What a register or a cell holds does not depend on the draw index; what a read of one without a specified value gives does. -/
@[simp] theorem State.reg?_withDraws (d : Nat) : ({ s with draws := d } : State).reg? j = s.reg? j := rfl
@[simp] theorem State.cell?_withDraws (d : Nat) : ({ s with draws := d } : State).cell? a = s.cell? a := rfl

/-- A read of a register that holds a specified value gives it. -/
theorem State.reg_of_reg? {w : Word} (h : s.reg? i = some w) : s.reg i = w := by simp [State.reg, h]
/-- A read of a cell that holds a specified value gives it. -/
theorem State.memRead_of_cell? {w : Word} (h : s.cell? a = some w) : s.memRead a = w := by simp [State.memRead, h]

theorem RegIdx.slot_inj {i j : RegIdx} (hi : i ≠ 0#5) (hj : j ≠ 0#5) (h : i.toNat - 1 = j.toNat - 1) : i = j := by
  have hi' : i.toNat ≠ 0 := fun e => hi (BitVec.eq_of_toNat_eq (by simpa using e))
  have hj' : j.toNat ≠ 0 := fun e => hj (BitVec.eq_of_toNat_eq (by simpa using e))
  exact BitVec.eq_of_toNat_eq (by omega)

/-- What a register write leaves in each register: the value in its own unless that is r0, nothing new elsewhere (R17). -/
theorem State.reg?_setReg : (s.setReg i v).reg? j = if j = i ∧ i ≠ 0#5 then some v else s.reg? j := by
  by_cases hi : i = 0#5
  · subst hi; simp
  · by_cases hj : j = 0#5
    · subst hj; simp [Ne.symm hi]
    · by_cases hij : j = i
      · subst hij; simp [State.reg?, State.setReg, hj]
      · have hne : i.toNat - 1 ≠ j.toNat - 1 := fun h => hij (RegIdx.slot_inj hi hj h).symm
        simp [State.reg?, State.setReg, hi, hj, hij, Vector.getElem_set_ne _ _ hne]

/-- What a memory write leaves in each cell (R34, R38). -/
theorem State.cell?_memWrite : (s.memWrite a v).cell? b = if b = a then some v else s.cell? b := by
  simp only [State.cell?, State.memWrite, Memory.lookup_write, BitVec.toNat_inj]

/-- Every register holds a specified value where nothing is left unwritten. -/
theorem State.reg?_isSome (h : s.unwritten = []) : (s.reg? i).isSome := by
  unfold State.reg?; split <;> simp [h]

/-- Every cell holds a specified value under `RESET_CONTENTS = zero` (R29). -/
theorem State.cell?_isSome (h : s.cfg.resetContents = .zero) : (s.cell? a).isSome := by
  simp [State.cell?, h, ResetContents.cell]

/-- A memory write keeps the canonical form of the memory. -/
theorem State.memWrite_wf (h : s.mem.wf s.cfg.resetContents) :
    (s.memWrite a v).mem.wf (s.memWrite a v).cfg.resetContents :=
  Memory.wf_write v h a.isLt

/-- A register write leaves no register unwritten that was written. -/
theorem State.setReg_unwritten_nil (h : s.unwritten = []) : (s.setReg i v).unwritten = [] := by
  unfold State.setReg; split <;> simp [h]

end Sys2Proof.Machine
end

