-- ==== Sys2Proof/Laws/Frames.lean ====
section
/-!
SUPPORT. What each shared operation of the meanings does, said once, for the provers to cite.
-/

namespace Sys2Proof.Machine

variable (s : State) (rd rs : RegIdx) (a v t imm : Word)

/-- Ending a step leaves the model's own fields as they stand, where no free values are drawn. -/
theorem State.finish_ownFields (u : State) (hc : u.cfg = s.cfg) (hd : u.draws = s.draws) :
    s.OwnFieldsStand (u.finish t) := by
  refine ⟨hc, fun h => ?_⟩
  rw [← hc] at h
  simp [State.finish, State.tick, h, hd]

/-- A step that only ends leaves the state as it was exactly where it ends at the pc it began at, whatever the draw index. -/
theorem State.sameButDraws_finish (d : Nat) : s.SameButDraws ({ s with draws := d }.finish t) ↔ t = s.pc :=
  ⟨fun h => congrArg State.pc h, fun h => by subst h; rfl⟩

/-- States that are the same but for the draw index have the same pc. -/
theorem State.sameButDraws_pc {u : State} (h : s.SameButDraws u) : u.pc = s.pc := by
  have hpc := congrArg State.pc (show ({ u with draws := s.draws } : State) = s from h)
  exact hpc

/-- A step that only ends, at `t`. -/
theorem State.finish_onlyPc : s.OnlyPc (s.finish t) t :=
  ⟨rfl, fun _ => rfl, fun _ => rfl, s.finish_ownFields t s rfl rfl⟩

/-- A register write and the end of the step. -/
theorem State.setReg_finish_onlyRegister : s.OnlyRegister ((s.setReg rd v).finish t) rd v t :=
  ⟨rfl, fun j => by simp [State.reg?_setReg], fun a => by simp, s.finish_ownFields t _ (by simp) (by simp)⟩

/-- A memory write and the end of the step. -/
theorem State.memWrite_finish_onlyCell : s.OnlyCell ((s.memWrite a v).finish t) a v t :=
  ⟨rfl, fun j => by simp, fun b => by simp [State.cell?_memWrite], s.finish_ownFields t _ rfl rfl⟩

/-- A register ALU instruction always answers a next state: its result written, the pc advanced by 1. -/
theorem State.regAlu_next : ∃ u, s.regAlu rd v = .next u ∧ s.OnlyRegister u rd v (s.pc + 1#16) :=
  ⟨_, rfl, by simpa [State.advance] using s.setReg_finish_onlyRegister rd v (s.pc + 1#16)⟩

/-- An immediate ALU instruction always answers a next state: its result written, the pc advanced by 2. -/
theorem State.immAlu_next : ∃ u, s.immAlu rd v = .next u ∧ s.OnlyRegister u rd v (s.pc + 2#16) :=
  ⟨_, rfl, by simpa [State.advance] using s.setReg_finish_onlyRegister rd v (s.pc + 2#16)⟩

/-- A conditional branch always answers a next state: only the pc changes. -/
theorem State.branch_next (c : Cond) : ∃ u, s.branch c rd rs imm = .next u ∧
    s.OnlyPc u (if c.holds (s.reg rd) (s.reg rs) then imm else s.pc + 2#16) :=
  ⟨_, rfl, s.finish_onlyPc _⟩

/-- An unassigned opcode under `nop`: only the pc changes. -/
theorem State.unassigned_next (op : BitVec 6) (h : s.cfg.unassigned = .nop) :
    ∃ u, s.unassigned op = .next u ∧ s.OnlyPc u (s.pc + 1#16) :=
  ⟨s.advance 1#16, by simp [State.unassigned, h], s.finish_onlyPc _⟩

/-- An unassigned opcode under `refuse`: refused. -/
theorem State.unassigned_refused (op : BitVec 6) (h : s.cfg.unassigned = .refuse) :
    s.unassigned op = .refused (.unassignedOpcode op) := by
  simp [State.unassigned, h]

/-- Ending a step keeps the invariant. -/
theorem State.finish_inv {u : State} (h : u.Inv) : (u.finish t).Inv := h

/-- A register write keeps the invariant. -/
theorem State.setReg_inv (h : s.Inv) : (s.setReg rd v).Inv := by
  refine ⟨by simpa using h.1, fun hz => ?_⟩
  exact s.setReg_unwritten_nil rd v (h.2 (by simpa using hz))

/-- A memory write keeps the invariant. -/
theorem State.memWrite_inv (h : s.Inv) : (s.memWrite a v).Inv :=
  ⟨s.memWrite_wf a v h.1, h.2⟩

end Sys2Proof.Machine
end

