-- ==== Sys2Proof/Laws/PerInstr.lean ====
section
/-!
SUPPORT. What holds of every instruction as text, one lemma per constructor.
-/

namespace Sys2Proof.Laws.Encoding

/-- The instruction's word carries its opcode, and its opcode tells whether an immediate word follows (R55, R57). -/
def Statement (i : Instr) : Prop := fieldOp (encodeWord i) = i.opcode ∧ usesImm i.opcode = i.immediate.isSome

theorem add (rd rs : RegIdx) : Statement (.add rd rs) := ⟨fieldOp_wordOfFields _ _ _, by rfl⟩
theorem sub (rd rs : RegIdx) : Statement (.sub rd rs) := ⟨fieldOp_wordOfFields _ _ _, by rfl⟩
theorem and (rd rs : RegIdx) : Statement (.and rd rs) := ⟨fieldOp_wordOfFields _ _ _, by rfl⟩
theorem or (rd rs : RegIdx) : Statement (.or rd rs) := ⟨fieldOp_wordOfFields _ _ _, by rfl⟩
theorem xor (rd rs : RegIdx) : Statement (.xor rd rs) := ⟨fieldOp_wordOfFields _ _ _, by rfl⟩
theorem sll (rd rs : RegIdx) : Statement (.sll rd rs) := ⟨fieldOp_wordOfFields _ _ _, by rfl⟩
theorem srl (rd rs : RegIdx) : Statement (.srl rd rs) := ⟨fieldOp_wordOfFields _ _ _, by rfl⟩
theorem sra (rd rs : RegIdx) : Statement (.sra rd rs) := ⟨fieldOp_wordOfFields _ _ _, by rfl⟩
theorem addi (rd rs : RegIdx) (imm : Word) : Statement (.addi rd rs imm) := ⟨fieldOp_wordOfFields _ _ _, by rfl⟩
theorem unassigned09 (ignored : BitVec 10) : Statement (.unassigned09 ignored) := ⟨fieldOp_wordOfUpper _ _, by rfl⟩
theorem andi (rd rs : RegIdx) (imm : Word) : Statement (.andi rd rs imm) := ⟨fieldOp_wordOfFields _ _ _, by rfl⟩
theorem ori (rd rs : RegIdx) (imm : Word) : Statement (.ori rd rs imm) := ⟨fieldOp_wordOfFields _ _ _, by rfl⟩
theorem xori (rd rs : RegIdx) (imm : Word) : Statement (.xori rd rs imm) := ⟨fieldOp_wordOfFields _ _ _, by rfl⟩
theorem sfti (rd rs : RegIdx) (imm : Word) : Statement (.sfti rd rs imm) := ⟨fieldOp_wordOfFields _ _ _, by rfl⟩
theorem unassigned14 (ignored : BitVec 10) : Statement (.unassigned14 ignored) := ⟨fieldOp_wordOfUpper _ _, by rfl⟩
theorem srai (rd rs : RegIdx) (imm : Word) : Statement (.srai rd rs imm) := ⟨fieldOp_wordOfFields _ _ _, by rfl⟩
theorem ld (rd rs : RegIdx) : Statement (.ld rd rs) := ⟨fieldOp_wordOfFields _ _ _, by rfl⟩
theorem st (rd rs : RegIdx) : Statement (.st rd rs) := ⟨fieldOp_wordOfFields _ _ _, by rfl⟩
theorem unassigned18 (ignored : BitVec 10) : Statement (.unassigned18 ignored) := ⟨fieldOp_wordOfUpper _ _, by rfl⟩
theorem unassigned19 (ignored : BitVec 10) : Statement (.unassigned19 ignored) := ⟨fieldOp_wordOfUpper _ _, by rfl⟩
theorem unassigned20 (ignored : BitVec 10) : Statement (.unassigned20 ignored) := ⟨fieldOp_wordOfUpper _ _, by rfl⟩
theorem unassigned21 (ignored : BitVec 10) : Statement (.unassigned21 ignored) := ⟨fieldOp_wordOfUpper _ _, by rfl⟩
theorem unassigned22 (ignored : BitVec 10) : Statement (.unassigned22 ignored) := ⟨fieldOp_wordOfUpper _ _, by rfl⟩
theorem unassigned23 (ignored : BitVec 10) : Statement (.unassigned23 ignored) := ⟨fieldOp_wordOfUpper _ _, by rfl⟩
theorem ldio (rd rs : RegIdx) (imm : Word) : Statement (.ldio rd rs imm) := ⟨fieldOp_wordOfFields _ _ _, by rfl⟩
theorem stio (rd rs : RegIdx) (imm : Word) : Statement (.stio rd rs imm) := ⟨fieldOp_wordOfFields _ _ _, by rfl⟩
theorem unassigned26 (ignored : BitVec 10) : Statement (.unassigned26 ignored) := ⟨fieldOp_wordOfUpper _ _, by rfl⟩
theorem unassigned27 (ignored : BitVec 10) : Statement (.unassigned27 ignored) := ⟨fieldOp_wordOfUpper _ _, by rfl⟩
theorem unassigned28 (ignored : BitVec 10) : Statement (.unassigned28 ignored) := ⟨fieldOp_wordOfUpper _ _, by rfl⟩
theorem unassigned29 (ignored : BitVec 10) : Statement (.unassigned29 ignored) := ⟨fieldOp_wordOfUpper _ _, by rfl⟩
theorem unassigned30 (ignored : BitVec 10) : Statement (.unassigned30 ignored) := ⟨fieldOp_wordOfUpper _ _, by rfl⟩
theorem unassigned31 (ignored : BitVec 10) : Statement (.unassigned31 ignored) := ⟨fieldOp_wordOfUpper _ _, by rfl⟩
theorem unassigned32 (ignored : BitVec 10) : Statement (.unassigned32 ignored) := ⟨fieldOp_wordOfUpper _ _, by rfl⟩
theorem unassigned33 (ignored : BitVec 10) : Statement (.unassigned33 ignored) := ⟨fieldOp_wordOfUpper _ _, by rfl⟩
theorem unassigned34 (ignored : BitVec 10) : Statement (.unassigned34 ignored) := ⟨fieldOp_wordOfUpper _ _, by rfl⟩
theorem unassigned35 (ignored : BitVec 10) : Statement (.unassigned35 ignored) := ⟨fieldOp_wordOfUpper _ _, by rfl⟩
theorem unassigned36 (ignored : BitVec 10) : Statement (.unassigned36 ignored) := ⟨fieldOp_wordOfUpper _ _, by rfl⟩
theorem unassigned37 (ignored : BitVec 10) : Statement (.unassigned37 ignored) := ⟨fieldOp_wordOfUpper _ _, by rfl⟩
theorem unassigned38 (ignored : BitVec 10) : Statement (.unassigned38 ignored) := ⟨fieldOp_wordOfUpper _ _, by rfl⟩
theorem unassigned39 (ignored : BitVec 10) : Statement (.unassigned39 ignored) := ⟨fieldOp_wordOfUpper _ _, by rfl⟩
theorem jal (rd rs : RegIdx) (imm : Word) : Statement (.jal rd rs imm) := ⟨fieldOp_wordOfFields _ _ _, by rfl⟩
theorem jsh (off : Int) : Statement (.jsh off) := ⟨fieldOp_wordOfUpper _ _, by rfl⟩
theorem beq (rd rs : RegIdx) (imm : Word) : Statement (.beq rd rs imm) := ⟨fieldOp_wordOfFields _ _ _, by rfl⟩
theorem bne (rd rs : RegIdx) (imm : Word) : Statement (.bne rd rs imm) := ⟨fieldOp_wordOfFields _ _ _, by rfl⟩
theorem blt (rd rs : RegIdx) (imm : Word) : Statement (.blt rd rs imm) := ⟨fieldOp_wordOfFields _ _ _, by rfl⟩
theorem bge (rd rs : RegIdx) (imm : Word) : Statement (.bge rd rs imm) := ⟨fieldOp_wordOfFields _ _ _, by rfl⟩
theorem bltu (rd rs : RegIdx) (imm : Word) : Statement (.bltu rd rs imm) := ⟨fieldOp_wordOfFields _ _ _, by rfl⟩
theorem bgeu (rd rs : RegIdx) (imm : Word) : Statement (.bgeu rd rs imm) := ⟨fieldOp_wordOfFields _ _ _, by rfl⟩
theorem unassigned48 (ignored : BitVec 10) : Statement (.unassigned48 ignored) := ⟨fieldOp_wordOfUpper _ _, by rfl⟩
theorem unassigned49 (ignored : BitVec 10) : Statement (.unassigned49 ignored) := ⟨fieldOp_wordOfUpper _ _, by rfl⟩
theorem unassigned50 (ignored : BitVec 10) : Statement (.unassigned50 ignored) := ⟨fieldOp_wordOfUpper _ _, by rfl⟩
theorem unassigned51 (ignored : BitVec 10) : Statement (.unassigned51 ignored) := ⟨fieldOp_wordOfUpper _ _, by rfl⟩
theorem unassigned52 (ignored : BitVec 10) : Statement (.unassigned52 ignored) := ⟨fieldOp_wordOfUpper _ _, by rfl⟩
theorem unassigned53 (ignored : BitVec 10) : Statement (.unassigned53 ignored) := ⟨fieldOp_wordOfUpper _ _, by rfl⟩
theorem unassigned54 (ignored : BitVec 10) : Statement (.unassigned54 ignored) := ⟨fieldOp_wordOfUpper _ _, by rfl⟩
theorem unassigned55 (ignored : BitVec 10) : Statement (.unassigned55 ignored) := ⟨fieldOp_wordOfUpper _ _, by rfl⟩
theorem unassigned56 (ignored : BitVec 10) : Statement (.unassigned56 ignored) := ⟨fieldOp_wordOfUpper _ _, by rfl⟩
theorem unassigned57 (ignored : BitVec 10) : Statement (.unassigned57 ignored) := ⟨fieldOp_wordOfUpper _ _, by rfl⟩
theorem unassigned58 (ignored : BitVec 10) : Statement (.unassigned58 ignored) := ⟨fieldOp_wordOfUpper _ _, by rfl⟩
theorem unassigned59 (ignored : BitVec 10) : Statement (.unassigned59 ignored) := ⟨fieldOp_wordOfUpper _ _, by rfl⟩
theorem unassigned60 (ignored : BitVec 10) : Statement (.unassigned60 ignored) := ⟨fieldOp_wordOfUpper _ _, by rfl⟩
theorem unassigned61 (ignored : BitVec 10) : Statement (.unassigned61 ignored) := ⟨fieldOp_wordOfUpper _ _, by rfl⟩
theorem unassigned62 (ignored : BitVec 10) : Statement (.unassigned62 ignored) := ⟨fieldOp_wordOfUpper _ _, by rfl⟩
theorem unassigned63 (ignored : BitVec 10) : Statement (.unassigned63 ignored) := ⟨fieldOp_wordOfUpper _ _, by rfl⟩

/-- Every instruction meets the statement. -/
theorem all (i : Instr) : Statement i := by
  cases i with
  | add rd rs => exact add rd rs
  | sub rd rs => exact sub rd rs
  | and rd rs => exact and rd rs
  | or rd rs => exact or rd rs
  | xor rd rs => exact xor rd rs
  | sll rd rs => exact sll rd rs
  | srl rd rs => exact srl rd rs
  | sra rd rs => exact sra rd rs
  | addi rd rs imm => exact addi rd rs imm
  | unassigned09 ignored => exact unassigned09 ignored
  | andi rd rs imm => exact andi rd rs imm
  | ori rd rs imm => exact ori rd rs imm
  | xori rd rs imm => exact xori rd rs imm
  | sfti rd rs imm => exact sfti rd rs imm
  | unassigned14 ignored => exact unassigned14 ignored
  | srai rd rs imm => exact srai rd rs imm
  | ld rd rs => exact ld rd rs
  | st rd rs => exact st rd rs
  | unassigned18 ignored => exact unassigned18 ignored
  | unassigned19 ignored => exact unassigned19 ignored
  | unassigned20 ignored => exact unassigned20 ignored
  | unassigned21 ignored => exact unassigned21 ignored
  | unassigned22 ignored => exact unassigned22 ignored
  | unassigned23 ignored => exact unassigned23 ignored
  | ldio rd rs imm => exact ldio rd rs imm
  | stio rd rs imm => exact stio rd rs imm
  | unassigned26 ignored => exact unassigned26 ignored
  | unassigned27 ignored => exact unassigned27 ignored
  | unassigned28 ignored => exact unassigned28 ignored
  | unassigned29 ignored => exact unassigned29 ignored
  | unassigned30 ignored => exact unassigned30 ignored
  | unassigned31 ignored => exact unassigned31 ignored
  | unassigned32 ignored => exact unassigned32 ignored
  | unassigned33 ignored => exact unassigned33 ignored
  | unassigned34 ignored => exact unassigned34 ignored
  | unassigned35 ignored => exact unassigned35 ignored
  | unassigned36 ignored => exact unassigned36 ignored
  | unassigned37 ignored => exact unassigned37 ignored
  | unassigned38 ignored => exact unassigned38 ignored
  | unassigned39 ignored => exact unassigned39 ignored
  | jal rd rs imm => exact jal rd rs imm
  | jsh off => exact jsh off
  | beq rd rs imm => exact beq rd rs imm
  | bne rd rs imm => exact bne rd rs imm
  | blt rd rs imm => exact blt rd rs imm
  | bge rd rs imm => exact bge rd rs imm
  | bltu rd rs imm => exact bltu rd rs imm
  | bgeu rd rs imm => exact bgeu rd rs imm
  | unassigned48 ignored => exact unassigned48 ignored
  | unassigned49 ignored => exact unassigned49 ignored
  | unassigned50 ignored => exact unassigned50 ignored
  | unassigned51 ignored => exact unassigned51 ignored
  | unassigned52 ignored => exact unassigned52 ignored
  | unassigned53 ignored => exact unassigned53 ignored
  | unassigned54 ignored => exact unassigned54 ignored
  | unassigned55 ignored => exact unassigned55 ignored
  | unassigned56 ignored => exact unassigned56 ignored
  | unassigned57 ignored => exact unassigned57 ignored
  | unassigned58 ignored => exact unassigned58 ignored
  | unassigned59 ignored => exact unassigned59 ignored
  | unassigned60 ignored => exact unassigned60 ignored
  | unassigned61 ignored => exact unassigned61 ignored
  | unassigned62 ignored => exact unassigned62 ignored
  | unassigned63 ignored => exact unassigned63 ignored

end Sys2Proof.Laws.Encoding
end

