-- ==== Sys2Proof/Laws/Step.lean ====
section
/-!
SUPPORT. What an instruction can do, said once over all 64 constructors, so that no later proof splits them again.
-/

namespace Sys2Proof.Machine

variable {i : Instr} {s t : State}

/-- Each unassigned instruction runs the one shared behaviour, with its own opcode. -/
theorem exec_unassigned (h : i.isUnassigned = true) : exec i s = s.unassigned i.opcode := by
  cases i <;> first | rfl | exact absurd h Bool.false_ne_true

/-- Everything an instruction that completes can do: write one register (its target), or one cell (at its store address), or
neither; and then set the pc. -/
theorem exec_cases (h : exec i s = .next t) :
    (∃ rd v p, i.target = some rd ∧ i.storeAddress s = none ∧ t = (s.setReg rd v).finish p) ∨
    (∃ rd a p, i.target = none ∧ i.storeAddress s = some a ∧ t = (s.memWrite a (s.reg rd)).finish p) ∨
    (∃ p, i.target = none ∧ i.storeAddress s = none ∧ t = s.finish p) := by
  by_cases hu : i.isUnassigned = true
  · rw [exec_unassigned hu] at h
    unfold State.unassigned at h
    split at h
    · cases h
      cases i <;> first | exact .inr (.inr ⟨_, rfl, rfl, rfl⟩) | exact absurd hu Bool.false_ne_true
    · cases h
  · cases i <;> first
      | exact absurd rfl hu
      | (cases h; exact .inl ⟨_, _, _, rfl, rfl, by simp only [State.advance, State.setReg_pc]; rfl⟩)
      | (cases h; exact .inl ⟨_, _, _, rfl, rfl, rfl⟩)
      | (cases h; exact .inr (.inl ⟨_, _, _, rfl, rfl, rfl⟩))
      | (cases h; exact .inr (.inr ⟨_, rfl, rfl, rfl⟩))

end Sys2Proof.Machine
end

