-- ==== Sys2Proof/Tests/Slice0.lean ====
section
/-!
SUPPORT. The model's own tests. Expected results come from the spec's vectors (95_test_vectors.md) and encodings
(30_encoding.md R48, R54, R57), and one `test_witness_…` for each obligation that has hypotheses meets all of them.
-/

namespace Sys2Proof.Tests

open Sys2Proof.Machine

/-- A state under the parameters `c`: reset, with the pc, some registers and some memory cells set. -/
def stateAt (c : Config) (pc : Word) (regs : List (RegIdx × Word)) (cells : List (Word × Word)) : State :=
  regs.foldl (fun s r => s.setReg r.1 r.2)
    (cells.foldl (fun s m => s.memWrite m.1 m.2) { State.resetWith c with pc := pc })

/-- One step from `s` leaves `s` with these registers, these cells and this pc changed, and nothing else. -/
def leads (s : State) (regs : List (RegIdx × Word)) (cells : List (Word × Word)) (pc : Word) : Bool :=
  match step s with
  | .next t => t = { regs.foldl (fun u r => u.setReg r.1 r.2) (cells.foldl (fun u m => u.memWrite m.1 m.2) s) with pc := pc }
  | _ => false

/-- The state a result holds, reset where it holds none. -/
def stateOf : Result → State
  | .next t => t
  | _ => State.reset

/-- Is a result a refusal for the unassigned opcode `op`? -/
def refuses (r : Result) (op : BitVec 6) : Bool :=
  match r with
  | .refused (.unassignedOpcode o) => o = op
  | _ => false

/-- The parameters with one value changed. -/
def mod16Config : Config := { defaultConfig with shiftOor := .mod16 }
def anyConfig : Config := { defaultConfig with shiftOor := .any }
def refuseConfig : Config := { defaultConfig with unassigned := .refuse }
def unspecifiedConfig : Config := { defaultConfig with resetContents := .unspecified }

/-! ### Well-formedness: an ill-formed term for each check (R57) -/

theorem test_wf_jsh_above : (Instr.jsh 512).wellFormed = false := by decide
theorem test_wf_jsh_below : (Instr.jsh (-513)).wellFormed = false := by decide
theorem test_wf_jsh_edges : (Instr.jsh 511).wellFormed = true ∧ (Instr.jsh (-512)).wellFormed = true := by decide

/-! ### Decoding: a word written out bit by bit for every constructor, S = 0b01010, D = 0b10101, then OP of R54 -/

theorem test_decode_register_alu :
    decode 0b01010_10101_000000 0x8001 = .add 21 10 ∧
    decode 0b01010_10101_000001 0x8001 = .sub 21 10 ∧
    decode 0b01010_10101_000010 0x8001 = .and 21 10 ∧
    decode 0b01010_10101_000011 0x8001 = .or 21 10 ∧
    decode 0b01010_10101_000100 0x8001 = .xor 21 10 ∧
    decode 0b01010_10101_000101 0x8001 = .sll 21 10 ∧
    decode 0b01010_10101_000110 0x8001 = .srl 21 10 ∧
    decode 0b01010_10101_000111 0x8001 = .sra 21 10 := by decide

theorem test_decode_immediate_alu :
    decode 0b01010_10101_001000 0x8001 = .addi 21 10 0x8001 ∧
    decode 0b01010_10101_001010 0x8001 = .andi 21 10 0x8001 ∧
    decode 0b01010_10101_001011 0x8001 = .ori 21 10 0x8001 ∧
    decode 0b01010_10101_001100 0x8001 = .xori 21 10 0x8001 ∧
    decode 0b01010_10101_001101 0x8001 = .sfti 21 10 0x8001 ∧
    decode 0b01010_10101_001111 0x8001 = .srai 21 10 0x8001 := by decide

theorem test_decode_load_store :
    decode 0b01010_10101_010000 0x8001 = .ld 21 10 ∧
    decode 0b01010_10101_010001 0x8001 = .st 21 10 ∧
    decode 0b01010_10101_011000 0x8001 = .ldio 21 10 0x8001 ∧
    decode 0b01010_10101_011001 0x8001 = .stio 21 10 0x8001 := by decide

theorem test_decode_control :
    decode 0b01010_10101_101000 0x8001 = .jal 21 10 0x8001 ∧
    decode 0x0029 0x1234 = .jsh 0 ∧
    decode 0x00A9 0x1234 = .jsh 2 ∧
    decode 0xFFA9 0x1234 = .jsh (-2) ∧
    decode 0x7FE9 0x1234 = .jsh 511 ∧
    decode 0x8029 0x1234 = .jsh (-512) ∧
    decode 0b01010_10101_101010 0x8001 = .beq 21 10 0x8001 ∧
    decode 0b01010_10101_101011 0x8001 = .bne 21 10 0x8001 ∧
    decode 0b01010_10101_101100 0x8001 = .blt 21 10 0x8001 ∧
    decode 0b01010_10101_101101 0x8001 = .bge 21 10 0x8001 ∧
    decode 0b01010_10101_101110 0x8001 = .bltu 21 10 0x8001 ∧
    decode 0b01010_10101_101111 0x8001 = .bgeu 21 10 0x8001 := by decide

theorem test_decode_unassigned_1 :
    decode 0b01010_10101_001001 0x8001 = .unassigned09 0b01010_10101 ∧
    decode 0b01010_10101_001110 0x8001 = .unassigned14 0b01010_10101 ∧
    decode 0b01010_10101_010010 0x8001 = .unassigned18 0b01010_10101 ∧
    decode 0b01010_10101_010011 0x8001 = .unassigned19 0b01010_10101 ∧
    decode 0b01010_10101_010100 0x8001 = .unassigned20 0b01010_10101 ∧
    decode 0b01010_10101_010101 0x8001 = .unassigned21 0b01010_10101 ∧
    decode 0b01010_10101_010110 0x8001 = .unassigned22 0b01010_10101 ∧
    decode 0b01010_10101_010111 0x8001 = .unassigned23 0b01010_10101 := by decide

theorem test_decode_unassigned_2 :
    decode 0b01010_10101_011010 0x8001 = .unassigned26 0b01010_10101 ∧
    decode 0b01010_10101_011011 0x8001 = .unassigned27 0b01010_10101 ∧
    decode 0b01010_10101_011100 0x8001 = .unassigned28 0b01010_10101 ∧
    decode 0b01010_10101_011101 0x8001 = .unassigned29 0b01010_10101 ∧
    decode 0b01010_10101_011110 0x8001 = .unassigned30 0b01010_10101 ∧
    decode 0b01010_10101_011111 0x8001 = .unassigned31 0b01010_10101 ∧
    decode 0b01010_10101_100000 0x8001 = .unassigned32 0b01010_10101 ∧
    decode 0b01010_10101_100001 0x8001 = .unassigned33 0b01010_10101 ∧
    decode 0b01010_10101_100010 0x8001 = .unassigned34 0b01010_10101 ∧
    decode 0b01010_10101_100011 0x8001 = .unassigned35 0b01010_10101 ∧
    decode 0b01010_10101_100100 0x8001 = .unassigned36 0b01010_10101 ∧
    decode 0b01010_10101_100101 0x8001 = .unassigned37 0b01010_10101 ∧
    decode 0b01010_10101_100110 0x8001 = .unassigned38 0b01010_10101 ∧
    decode 0b01010_10101_100111 0x8001 = .unassigned39 0b01010_10101 := by decide

theorem test_decode_unassigned_3 :
    decode 0b01010_10101_110000 0x8001 = .unassigned48 0b01010_10101 ∧
    decode 0b01010_10101_110001 0x8001 = .unassigned49 0b01010_10101 ∧
    decode 0b01010_10101_110010 0x8001 = .unassigned50 0b01010_10101 ∧
    decode 0b01010_10101_110011 0x8001 = .unassigned51 0b01010_10101 ∧
    decode 0b01010_10101_110100 0x8001 = .unassigned52 0b01010_10101 ∧
    decode 0b01010_10101_110101 0x8001 = .unassigned53 0b01010_10101 ∧
    decode 0b01010_10101_110110 0x8001 = .unassigned54 0b01010_10101 ∧
    decode 0b01010_10101_110111 0x8001 = .unassigned55 0b01010_10101 ∧
    decode 0b01010_10101_111000 0x8001 = .unassigned56 0b01010_10101 ∧
    decode 0b01010_10101_111001 0x8001 = .unassigned57 0b01010_10101 ∧
    decode 0b01010_10101_111010 0x8001 = .unassigned58 0b01010_10101 ∧
    decode 0b01010_10101_111011 0x8001 = .unassigned59 0b01010_10101 ∧
    decode 0b01010_10101_111100 0x8001 = .unassigned60 0b01010_10101 ∧
    decode 0b01010_10101_111101 0x8001 = .unassigned61 0b01010_10101 ∧
    decode 0b01010_10101_111110 0x8001 = .unassigned62 0b01010_10101 ∧
    decode 0b01010_10101_111111 0x8001 = .unassigned63 0b01010_10101 := by decide

/-- The words of R57's examples, and a word stream cut short. -/
theorem test_encode_examples :
    encode (.addi 1 0 0x0005) = [0x0048, 0x0005] ∧ encode (.beq 1 0 0x0010) = [0x006A, 0x0010] ∧
    encode (.jsh (-2)) = [0xFFA9] ∧ encode (.jal 31 0 0x0100) = [0x07E8, 0x0100] := by decide
theorem test_stream_rejects_nothing : decodeStream [] = .error .noInstructionWord := by rfl
theorem test_stream_rejects_half : decodeStream [0x0048] = .error (.noImmediateWord 8) := by rfl

/-- The disassembler's examples (L1.8). -/
theorem test_display :
    disassemble 0x1040 0 = "ADD r01, r02".toList ∧ disassemble 0x0048 0x0005 = "ADDI r01, r00, 0x0005".toList ∧
    disassemble 0x104D 0xFFFD = "SFTI r01, r02, -0x0003".toList ∧ disassemble 0xFFA9 0x1234 = "JSH -0x0002".toList ∧
    disassemble 0x003F 0 = [] := by decide

/-- The assembler reads both spellings of a register and of a negative amount (R63, R64), and the pseudo-instructions. -/
theorem test_assemble :
    assemble "ADD r1, r02".toList = some [0x1040] ∧ assemble "SFTI r1, r2, -0x0003".toList = some [0x104D, 0xFFFD] ∧
    assemble "SFTI r1, r2, 0xfffd".toList = some [0x104D, 0xFFFD] ∧ assemble "HALT".toList = some [0x0029] ∧
    assemble ".word 0x003F".toList = some [0x003F] ∧ assemble "ADD r1, r32".toList = none := by decide

/-! ### Register ALU (95_test_vectors.md 2.1) -/

/-- V41.2: `ADD r1, r2`, carry discarded. -/
theorem test_add_1 : leads (stateAt defaultConfig 0x0010 [(1, 0xFFFF), (2, 0x0001)]
    [(0x0010, 0x1040)]) [(1, 0x0000)] [] 0x0011 = true := by decide

/-- V41.4: `ADD r1, r1`, S = D: doubled. -/
theorem test_add_2 : leads (stateAt defaultConfig 0x0010 [(1, 0x8001)]
    [(0x0010, 0x0840)]) [(1, 0x0002)] [] 0x0011 = true := by decide

/-- V41.9: `SUB r1, r2`, borrow discarded. -/
theorem test_sub_1 : leads (stateAt defaultConfig 0x0010 [(1, 0x0000), (2, 0x0001)]
    [(0x0010, 0x1041)]) [(1, 0xFFFF)] [] 0x0011 = true := by decide

/-- V41.11: `SUB r1, r1`. -/
theorem test_sub_2 : leads (stateAt defaultConfig 0x0010 [(1, 0x1234)]
    [(0x0010, 0x0841)]) [(1, 0x0000)] [] 0x0011 = true := by decide

/-- V41.12: `AND r1, r2`. -/
theorem test_and_1 : leads (stateAt defaultConfig 0x0010 [(1, 0xF0F0), (2, 0xFF00)]
    [(0x0010, 0x1042)]) [(1, 0xF000)] [] 0x0011 = true := by decide

/-- V41.14: `OR r1, r2`. -/
theorem test_or_1 : leads (stateAt defaultConfig 0x0010 [(1, 0xF0F0), (2, 0x0F0F)]
    [(0x0010, 0x1043)]) [(1, 0xFFFF)] [] 0x0011 = true := by decide

/-- V41.15: `XOR r1, r2`. -/
theorem test_xor_1 : leads (stateAt defaultConfig 0x0010 [(1, 0xFFFF), (2, 0x00FF)]
    [(0x0010, 0x1044)]) [(1, 0xFF00)] [] 0x0011 = true := by decide

/-- V41.16: `XOR r1, r1`, CLR. -/
theorem test_xor_2 : leads (stateAt defaultConfig 0x0010 [(1, 0xBEEF)]
    [(0x0010, 0x0844)]) [(1, 0x0000)] [] 0x0011 = true := by decide

/-- V41.21: `SLL r1, r2`, amount -1: logical right (D4). -/
theorem test_sll_1 : leads (stateAt defaultConfig 0x0010 [(1, 0x8000), (2, 0xFFFF)]
    [(0x0010, 0x1045)]) [(1, 0x4000)] [] 0x0011 = true := by decide

/-- V41.24: `SLL r1, r1`, S = D: old value is amount. -/
theorem test_sll_2 : leads (stateAt defaultConfig 0x0010 [(1, 0x0003)]
    [(0x0010, 0x0845)]) [(1, 0x0018)] [] 0x0011 = true := by decide

/-- V41.26: `SRL r1, r2`, amount -4: left. -/
theorem test_srl_1 : leads (stateAt defaultConfig 0x0010 [(1, 0x000F), (2, 0xFFFC)]
    [(0x0010, 0x1046)]) [(1, 0x00F0)] [] 0x0011 = true := by decide

/-- V41.28: `SRL r1, r2`, zero fill. -/
theorem test_srl_2 : leads (stateAt defaultConfig 0x0010 [(1, 0x8000), (2, 0x0001)]
    [(0x0010, 0x1046)]) [(1, 0x4000)] [] 0x0011 = true := by decide

/-- V41.29: `SRA r1, r2`, sign fill. -/
theorem test_sra_1 : leads (stateAt defaultConfig 0x0010 [(1, 0x8000), (2, 0x0004)]
    [(0x0010, 0x1047)]) [(1, 0xF800)] [] 0x0011 = true := by decide

/-- V41.34: `SRA r1, r2`, left, bit 15 not kept (D4). -/
theorem test_sra_2 : leads (stateAt defaultConfig 0x0010 [(1, 0xC000), (2, 0xFFFF)]
    [(0x0010, 0x1047)]) [(1, 0x8000)] [] 0x0011 = true := by decide

/-! ### Immediate ALU (2.2) -/

/-- V42.3: `ADDI r1, r0, 0x0005`, LI. -/
theorem test_addi_1 : leads (stateAt defaultConfig 0x0000 []
    [(0x0000, 0x0048), (0x0001, 0x0005)]) [(1, 0x0005)] [] 0x0002 = true := by decide

/-- V42.5: `ADDI r1, r1, 0x0001`, imm from M[0x0000]. -/
theorem test_addi_2 : leads (stateAt defaultConfig 0xFFFF [(1, 0x0009)]
    [(0xFFFF, 0x0848), (0x0000, 0x0001)]) [(1, 0x000A)] [] 0x0001 = true := by decide

/-- V42.6: `ANDI r1, r2, 0x00FF`. -/
theorem test_andi_1 : leads (stateAt defaultConfig 0x0010 [(2, 0x1234)]
    [(0x0010, 0x104A), (0x0011, 0x00FF)]) [(1, 0x0034)] [] 0x0012 = true := by decide

/-- V42.8: `ORI r1, r2, 0x0034`. -/
theorem test_ori_1 : leads (stateAt defaultConfig 0x0010 [(2, 0x1200)]
    [(0x0010, 0x104B), (0x0011, 0x0034)]) [(1, 0x1234)] [] 0x0012 = true := by decide

/-- V42.9: `XORI r1, r2, 0xFFFF`, NOT. -/
theorem test_xori_1 : leads (stateAt defaultConfig 0x0010 [(2, 0x1234)]
    [(0x0010, 0x104C), (0x0011, 0xFFFF)]) [(1, 0xEDCB)] [] 0x0012 = true := by decide

/-- V42.12: `SFTI r1, r2, -0x0001`, logical right (D4). -/
theorem test_sfti_1 : leads (stateAt defaultConfig 0x0010 [(2, 0x8000)]
    [(0x0010, 0x104D), (0x0011, 0xFFFF)]) [(1, 0x4000)] [] 0x0012 = true := by decide

/-- V42.13: `SFTI r1, r2, 0x0000`, amount 0. -/
theorem test_sfti_2 : leads (stateAt defaultConfig 0x0010 [(2, 0x1234)]
    [(0x0010, 0x104D), (0x0011, 0x0000)]) [(1, 0x1234)] [] 0x0012 = true := by decide

/-- V42.16: `SRAI r1, r2, 0x0003`. -/
theorem test_srai_1 : leads (stateAt defaultConfig 0x0010 [(2, 0x8000)]
    [(0x0010, 0x104F), (0x0011, 0x0003)]) [(1, 0xF000)] [] 0x0012 = true := by decide

/-- V42.17: `SRAI r1, r2, -0x0003`, left. -/
theorem test_srai_2 : leads (stateAt defaultConfig 0x0010 [(2, 0x0001)]
    [(0x0010, 0x104F), (0x0011, 0xFFFD)]) [(1, 0x0008)] [] 0x0012 = true := by decide

/-! ### Load and store (2.3) -/

/-- V43.2: `LD r1, r0`, reads M[0x0000], its own word. -/
theorem test_ld_1 : leads (stateAt defaultConfig 0x0000 []
    [(0x0000, 0x0050)]) [(1, 0x0050)] [] 0x0001 = true := by decide

/-- V43.3: `LD r1, r1`, old r1 is the address. -/
theorem test_ld_2 : leads (stateAt defaultConfig 0x0010 [(1, 0x0100)]
    [(0x0010, 0x0850), (0x0100, 0x4444)]) [(1, 0x4444)] [] 0x0011 = true := by decide

/-- V43.6: `ST r0, r2`, stores 0x0000. -/
theorem test_st_1 : leads (stateAt defaultConfig 0x0010 [(2, 0x0200)]
    [(0x0010, 0x1011), (0x0200, 0x7777)]) [] [(0x0200, 0x0000)] 0x0011 = true := by decide

/-- V43.8: `ST r1, r2`, overwrites the next word. -/
theorem test_st_2 : leads (stateAt defaultConfig 0x0010 [(1, 0x0029), (2, 0x0011)]
    [(0x0010, 0x1051)]) [] [(0x0011, 0x0029)] 0x0011 = true := by decide

/-- V43.10: `LDIO r1, r2, 0x0002`, address wraps. -/
theorem test_ldio_1 : leads (stateAt defaultConfig 0x0010 [(2, 0xFFFF)]
    [(0x0010, 0x1058), (0x0011, 0x0002), (0x0001, 0x5A5A)]) [(1, 0x5A5A)] [] 0x0012 = true := by decide

/-- V43.11: `LDIO r1, r0, 0x0040`, absolute. -/
theorem test_ldio_2 : leads (stateAt defaultConfig 0x0010 []
    [(0x0010, 0x0058), (0x0011, 0x0040), (0x0040, 0x0102)]) [(1, 0x0102)] [] 0x0012 = true := by decide

/-- V43.12: `STIO r1, r2, 0xFFFF`, offset -1. -/
theorem test_stio_1 : leads (stateAt defaultConfig 0x0010 [(1, 0x00AA), (2, 0x0101)]
    [(0x0010, 0x1059), (0x0011, 0xFFFF)]) [] [(0x0100, 0x00AA)] 0x0012 = true := by decide

/-- V43.13: `STIO r1, r0, 0x0011`, overwrites its own immediate word. -/
theorem test_stio_2 : leads (stateAt defaultConfig 0x0010 [(1, 0x9999)]
    [(0x0010, 0x0059), (0x0011, 0x0011)]) [] [(0x0011, 0x9999)] 0x0012 = true := by decide

/-! ### Control transfer (2.4) -/

/-- V44.2: `JAL r5, r5, 0x0004`, S = D: old r5 is the base (D7). -/
theorem test_jal_1 : leads (stateAt defaultConfig 0x0030 [(5, 0x0200)]
    [(0x0030, 0x2968), (0x0031, 0x0004)]) [(5, 0x0032)] [] 0x0204 = true := by decide

/-- V44.4: `JAL r1, r0, 0x0040`, imm from M[0x0000]. -/
theorem test_jal_2 : leads (stateAt defaultConfig 0xFFFF []
    [(0xFFFF, 0x0068), (0x0000, 0x0040)]) [(1, 0x0001)] [] 0x0040 = true := by decide

/-- V44.8: `JSH -0x01FF`, OFF = 0b1000000001. -/
theorem test_jsh_1 : leads (stateAt defaultConfig 0x0000 []
    [(0x0000, 0x8069)]) [] [] 0xFE01 = true := by decide

/-- V44.13: `JSH 0x0002`, wraps up. -/
theorem test_jsh_2 : leads (stateAt defaultConfig 0xFFFF []
    [(0xFFFF, 0x00A9)]) [] [] 0x0001 = true := by decide

/-- V44.14: `BEQ r1, r0, 0x0010`, document: taken. -/
theorem test_beq_1 : leads (stateAt defaultConfig 0x0000 []
    [(0x0000, 0x006A), (0x0001, 0x0010)]) [] [] 0x0010 = true := by decide

/-- V44.15: `BEQ r1, r0, 0x0010`, document: not taken. -/
theorem test_beq_2 : leads (stateAt defaultConfig 0x0000 [(1, 0x0001)]
    [(0x0000, 0x006A), (0x0001, 0x0010)]) [] [] 0x0002 = true := by decide

/-- V44.17: `BNE r1, r2, 0x0040`. -/
theorem test_bne_1 : leads (stateAt defaultConfig 0x0020 [(1, 0x0001), (2, 0x0002)]
    [(0x0020, 0x106B), (0x0021, 0x0040)]) [] [] 0x0040 = true := by decide

/-- V44.18: `BNE r1, r1, 0x0040`, never taken. -/
theorem test_bne_2 : leads (stateAt defaultConfig 0xFFFF [(1, 0x0007)]
    [(0xFFFF, 0x086B), (0x0000, 0x0040)]) [] [] 0x0001 = true := by decide

/-- V44.20: `BLT r1, r2, 0x0040`, -32768 < 32767. -/
theorem test_blt_1 : leads (stateAt defaultConfig 0x0020 [(1, 0x8000), (2, 0x7FFF)]
    [(0x0020, 0x106C), (0x0021, 0x0040)]) [] [] 0x0040 = true := by decide

/-- V44.21: `BLT r1, r2, 0x0040`, equal: not taken. -/
theorem test_blt_2 : leads (stateAt defaultConfig 0x0020 [(1, 0x0003), (2, 0x0003)]
    [(0x0020, 0x106C), (0x0021, 0x0040)]) [] [] 0x0022 = true := by decide

/-- V44.22: `BGE r1, r2, 0x0040`, equal: taken. -/
theorem test_bge_1 : leads (stateAt defaultConfig 0x0020 [(1, 0x0003), (2, 0x0003)]
    [(0x0020, 0x106D), (0x0021, 0x0040)]) [] [] 0x0040 = true := by decide

/-- V44.23: `BGE r1, r2, 0x0040`, not taken. -/
theorem test_bge_2 : leads (stateAt defaultConfig 0x0020 [(1, 0x8000), (2, 0x7FFF)]
    [(0x0020, 0x106D), (0x0021, 0x0040)]) [] [] 0x0022 = true := by decide

/-- V44.24: `BLTU r1, r2, 0x0040`, 65535 < 1 is false. -/
theorem test_bltu_1 : leads (stateAt defaultConfig 0x0020 [(1, 0xFFFF), (2, 0x0001)]
    [(0x0020, 0x106E), (0x0021, 0x0040)]) [] [] 0x0022 = true := by decide

/-- V44.25: `BLTU r0, r2, 0x0040`, taken if r2 ≠ 0. -/
theorem test_bltu_2 : leads (stateAt defaultConfig 0x0020 [(2, 0x0001)]
    [(0x0020, 0x102E), (0x0021, 0x0040)]) [] [] 0x0040 = true := by decide

/-- V44.26: `BGEU r1, r2, 0x0040`, taken. -/
theorem test_bgeu_1 : leads (stateAt defaultConfig 0x0020 [(1, 0x8000), (2, 0x7FFF)]
    [(0x0020, 0x106F), (0x0021, 0x0040)]) [] [] 0x0040 = true := by decide

/-- V44.27: `BGEU r1, r0, 0x0040`, always taken. -/
theorem test_bgeu_2 : leads (stateAt defaultConfig 0x0020 [(1, 0x0000)]
    [(0x0020, 0x006F), (0x0021, 0x0040)]) [] [] 0x0040 = true := by decide

/-! ### Unassigned opcodes (2.5) -/

/-- V45.1: `.word 0x003F`. -/
theorem test_unassigned63 : leads (stateAt defaultConfig 0x0005 []
    [(0x0005, 0x003F)]) [] [] 0x0006 = true := by decide

/-- V45.4: `.word 0xFFF2`. -/
theorem test_unassigned50 : leads (stateAt defaultConfig 0xFFFF [(31, 0x0001)]
    [(0xFFFF, 0xFFF2)]) [] [] 0x0000 = true := by decide

/-- V45.2: `.word 0x0009`. -/
theorem test_unassigned09 : leads (stateAt defaultConfig 0x0005 [(1, 0x1111)]
    [(0x0005, 0x0009)]) [] [] 0x0006 = true := by decide

/-- V45.3: `.word 0x000E`. -/
theorem test_unassigned14 : leads (stateAt defaultConfig 0x0005 []
    [(0x0005, 0x000E)]) [] [] 0x0006 = true := by decide

/-- V45.5: `.word 0x0060`. -/
theorem test_unassigned32 : leads (stateAt defaultConfig 0x0010 [(1, 0x0010)]
    [(0x0010, 0x0060)]) [] [] 0x0011 = true := by decide

/-! ### The values of `SHIFT_OOR` (the notes of V41.19, V41.31, V42.15) -/

/-- V41.19: an amount of magnitude 16 or more under `full`. -/
theorem test_sll_full : leads (stateAt defaultConfig 0x0010 [(1, 0x0001), (2, 0x0010)]
    [(0x0010, 0x1045)]) [(1, 0x0000)] [] 0x0011 = true := by decide

/-- V41.19: the same under `mod16`. -/
theorem test_sll_mod16 : leads (stateAt { defaultConfig with shiftOor := .mod16 } 0x0010 [(1, 0x0001), (2, 0x0010)]
    [(0x0010, 0x1045)]) [(1, 0x0001)] [] 0x0011 = true := by decide

/-- V41.31: an amount of magnitude 16 or more under `full`. -/
theorem test_sra_full : leads (stateAt defaultConfig 0x0010 [(1, 0x8000), (2, 0x0010)]
    [(0x0010, 0x1047)]) [(1, 0xFFFF)] [] 0x0011 = true := by decide

/-- V41.31: the same under `mod16`. -/
theorem test_sra_mod16 : leads (stateAt { defaultConfig with shiftOor := .mod16 } 0x0010 [(1, 0x8000), (2, 0x0010)]
    [(0x0010, 0x1047)]) [(1, 0x8000)] [] 0x0011 = true := by decide

/-- V42.15: an amount of magnitude 16 or more under `full`. -/
theorem test_sfti_full : leads (stateAt defaultConfig 0x0010 [(2, 0xFFFF)]
    [(0x0010, 0x104D), (0x0011, 0x8000)]) [(1, 0x0000)] [] 0x0012 = true := by decide

/-- V42.15: the same under `mod16`. -/
theorem test_sfti_mod16 : leads (stateAt { defaultConfig with shiftOor := .mod16 } 0x0010 [(2, 0xFFFF)]
    [(0x0010, 0x104D), (0x0011, 0x8000)]) [(1, 0xFFFF)] [] 0x0012 = true := by decide

/-! ### The other parameters and the boundary -/

/-- V45.1 under `refuse` (R121): no state after. -/
theorem test_refuse : refuses (step (stateAt refuseConfig 0x0005 [] [(0x0005, 0x003F)])) 63 = true := by decide

/-- Under `any` the step completes and every other effect stands (95_test_vectors.md, conventions). -/
theorem test_sll_any_completes :
    (stateOf (step (stateAt anyConfig 0x0010 [(1, 0x0001), (2, 0x0010)] [(0x0010, 0x1045)]))).pc = 0x0011 := by decide

/-- Under `unspecified` an unwritten register holds no specified value until it is written (R30). -/
theorem test_unspecified_until_written :
    (State.resetWith unspecifiedConfig).reg? 5 = none ∧ ((State.resetWith unspecifiedConfig).setReg 5 0).reg? 5 = some 0 ∧
    (State.resetWith unspecifiedConfig).cell? 7 = none ∧
    ((State.resetWith unspecifiedConfig).memWrite 7 0).cell? 7 = some 0 := by decide

/-- A host write to r0, then a host read (L1.1). -/
theorem test_host_r0 :
    BoundaryOp.returns (.readReg 0) (stateOf (runOps [.writeReg 0 0xBEEF] State.reset)) = some 0x0000 := by decide

/-- R35: high byte first. -/
theorem test_loader : assembleWords [(0x12, 0x34), (0x00, 0x48)] = [0x1234, 0x0048] := by decide

/-- R47: the transactions of V43.8, in order. -/
theorem test_transactions :
    (stateAt defaultConfig 0x0010 [(1, 0x0029), (2, 0x0011)] [(0x0010, 0x1051)]).transactions
      = [.read 0x0010 0x1051, .read 0x0011 0x0000, .write 0x0011 0x0029] := by decide

/-- From reset with nothing placed, the first step runs `ADD r0, r0` and only advances the pc (log entry 15). -/
theorem test_reset_step : leads State.reset [] [] 0x0001 = true := by decide

/-- A placed program runs at the very next step (L1.9 through `withFetchWord`). -/
theorem test_placed_step : leads (State.reset.withFetchWord 32 0x00050048) [(1, 0x0005)] [] 0x0002 = true := by decide

/-! ### Witnesses: for each obligation with hypotheses, values that meet them all -/

/-- L1.3: `ADD r1, r2` at 0x0000 with r1 = 0xFFF0 and r2 = 0x0020. -/
def addState : State := stateAt defaultConfig 0x0000 [(1, 0xFFF0), (2, 0x0020)] [(0x0000, 0x1040), (0x0001, 0x1041)]
/-- The counter-instance of L1.3: `ADD r1, r1`. -/
def doubleState : State := stateAt defaultConfig 0x0000 [(1, 0x1234)] [(0x0000, 0x0840), (0x0001, 0x0841)]
/-- An unassigned word at pc under `refuse`. -/
def refuseState : State := stateAt refuseConfig 0x0005 [] [(0x0005, 0xFFFF)]
/-- A state whose memory lists something, under every parameter but the defaults. -/
def oddState : State := stateAt ⟨.any, .nop, .unspecified⟩ 0xFFFF [(3, 0x0007)] [(0xFFFF, 0x0000), (0x0000, 0x0029)]

theorem test_witness_decodeOfEncode : (Instr.jsh (-512)).wellFormed = true ∧ (Instr.bgeu 31 31 0xFFFF).wellFormed = true := by
  decide
theorem test_witness_fieldSum :
    (fieldOp 0x0048).toNat ≠ 41 ∧ (-512 : Int) ≤ -512 ∧ (511 : Int) ≤ 511 ∧ (Instr.addi 1 0 5).immediate = some 5 := by decide
theorem test_witness_jshWord : (fieldOp 0x8069).toNat = 41 ∧ (0x8069 : Word).toNat % 64 = 41 := by decide
theorem test_witness_sourceLine : (Instr.sfti 1 2 0x8000).wellFormed = true ∧ (Instr.jsh 511).wellFormed = true := by decide
theorem test_witness_stepDecoded :
    decode (addState.memRead addState.pc) (addState.memRead (addState.pc + 1#16)) = .add 1 2 ∧
    (Instr.add 1 2).wellFormed = true := by decide
theorem test_witness_stepEncoded :
    (State.reset.withFetchWord 32 0x00050048).memRead 0 = encodeWord (.addi 1 0 5) ∧
    (Instr.addi 1 0 5).immediate = some ((State.reset.withFetchWord 32 0x00050048).memRead 1) := by decide
theorem test_witness_placedWords :
    decodeTableWord 32 0x00050048 = some (.addi 1 0 5) ∧ decodeTableWord 16 0x00050048 = some (.addi 1 0 0) := by decide
theorem test_witness_roundTrip :
    exec (.add 1 2) addState = .next (stateOf (exec (.add 1 2) addState)) ∧ (addState.reg? 2).isSome ∧ (2 : RegIdx) ≠ 1 :=
  ⟨rfl, by decide, by decide⟩
theorem test_witness_roundTrip_r0 :
    exec (.add 0 0) addState = .next (stateOf (exec (.add 0 0) addState)) ∧ (addState.reg? 0).isSome := ⟨rfl, by decide⟩
/-- The clauses of `IsShift` at the edges of their ranges: 0, 15, -15, then 16, -16 and -32768. -/
theorem test_witness_shiftInRange :
    (0x0000 : Word).toInt.natAbs ≤ 15 ∧ (0x000F : Word).toInt.natAbs ≤ 15 ∧ (0xFFF1 : Word).toInt.natAbs ≤ 15 := by decide
theorem test_witness_shiftOutOfRange :
    16 ≤ (0x0010 : Word).toInt.natAbs ∧ 16 ≤ (0xFFF0 : Word).toInt.natAbs ∧ (0x8000 : Word).toInt.natAbs = 32768 ∧
    defaultConfig.shiftOor = .full ∧ mod16Config.shiftOor = .mod16 ∧ anyConfig.shiftOor = .any := by decide
theorem test_witness_shiftNegation : (0x8001 : Word) ≠ 0x8000#16 ∧ (0x7FFF : Word) ≠ 0x8000#16 ∧ (15 : Nat) ≤ 15 := by decide
theorem test_witness_unassignedNop :
    (Instr.unassigned63 0x3FF).isUnassigned = true ∧ State.reset.cfg.unassigned = .nop := by decide
theorem test_witness_unassignedRefused :
    (Instr.unassigned09 0).isUnassigned = true ∧ refuseState.cfg.unassigned = .refuse ∧
    (refuseState.memRead refuseState.pc).toNat % 64 = 63 := by decide
theorem test_witness_withoutEffect :
    (Instr.ldio 0 3 7).target = some 0#5 ∧ (Instr.jal 0 2 0xFFE2).target = some 0#5 ∧
    addState.reg 2 + 0xFFE2 = addState.pc + 2#16 ∧ State.reset.memRead State.reset.pc = 0x0000#16 := by decide
theorem test_witness_addThenSubtract :
    (addState.reg? 1).isSome ∧ (addState.reg? 2).isSome ∧ exec (.add 1 2) addState = .next (stateOf (exec (.add 1 2) addState)) ∧
    exec (.sub 1 2) (stateOf (exec (.add 1 2) addState)) = .next (stateOf (exec (.sub 1 2) (stateOf (exec (.add 1 2) addState)))) :=
  ⟨by decide, by decide, rfl, rfl⟩
theorem test_witness_addThenSubtract_same :
    exec (.add 1 1) doubleState = .next (stateOf (exec (.add 1 1) doubleState)) ∧
    exec (.sub 1 1) (stateOf (exec (.add 1 1) doubleState))
      = .next (stateOf (exec (.sub 1 1) (stateOf (exec (.add 1 1) doubleState)))) ∧ (1 : RegIdx) ≠ 0#5 := ⟨rfl, rfl, by decide⟩
/-- Under `unspecified`: a step from a state with unwritten registers and with a specified cell. -/
theorem test_witness_stayWritten :
    step oddState = .next (stateOf (step oddState)) ∧ (5 : RegIdx) ∈ (stateOf (step oddState)).unwritten ∧
    (oddState.cell? 0x0000).isSome := ⟨rfl, by decide, by decide⟩
theorem test_witness_invariant :
    addState.Inv ∧ oddState.Inv ∧ addState.mem ≠ [] ∧ step addState = .next (stateOf (step addState)) :=
  ⟨by decide, by decide, by decide, rfl⟩
/-- A run of steps and host operations from a state that meets the invariant. -/
def someOps : List BoundaryOp := [.writeReg 3 7, .writeMem 9 1, .step, .readMem 9, .readReg 3, .writePc 1, .readPc]
theorem test_witness_boundaryRun : addState.Inv ∧ runOps someOps addState = .next (stateOf (runOps someOps addState)) :=
  ⟨by decide, rfl⟩
theorem test_witness_totalUnderNop : oddState.cfg.unassigned = .nop ∧ addState.cfg.unassigned = .nop := by decide
theorem test_witness_refusedStep : step refuseState = .refused (.unassignedOpcode 63#6) := by rfl
/-- `HALT` at 0x0100 (V44.11), under the parameters `c`. -/
def haltState (c : Config) : State := stateAt c 0x0100 [] [(0x0100, 0x0029)]
theorem test_witness_quiescent_jsh :
    (haltState defaultConfig).Inv ∧ (haltState defaultConfig).cfg.resetContents = .zero ∧
    leads (haltState defaultConfig) [] [] 0x0100 = true := by decide
/-- `HALT` leaves the state as it was too where the step moves on to fresh free values. -/
theorem test_witness_quiescent_drawing :
    (haltState unspecifiedConfig).cell? (haltState unspecifiedConfig).pc = some 0x0029#16 ∧
    (haltState unspecifiedConfig).SameButDraws (stateOf (step (haltState unspecifiedConfig))) ∧
    (haltState anyConfig).Inv ∧ (haltState anyConfig).SameButDraws (stateOf (step (haltState anyConfig))) ∧
    (stateOf (step (haltState anyConfig))).draws = 1 := by decide
/-- V44.16: a branch taken to itself. -/
theorem test_witness_quiescent_branch :
    (stateAt defaultConfig 0x0020 [] [(0x0020, 0x002A), (0x0021, 0x0020)]).Inv ∧
    leads (stateAt defaultConfig 0x0020 [] [(0x0020, 0x002A), (0x0021, 0x0020)]) [] [] 0x0020 = true := by decide
/-- R89's third case with a link register that already holds pc + 2. -/
theorem test_witness_quiescent_jal :
    leads (stateAt defaultConfig 0x0010 [(5, 0x0012)] [(0x0010, 0x0168), (0x0011, 0x0010)]) [] [] 0x0010 = true := by decide
/-- V43.8's store to the next word, which the next step fetches as its instruction. -/
theorem test_witness_storeSeen :
    let s := stateAt defaultConfig 0x0010 [(1, 0x0029), (2, 0x0011)] [(0x0010, 0x1051)]
    s.fetch.dataTransaction s = some (.write 0x0011 0x0029) ∧ step s = .next (stateOf (step s)) ∧
      (0x0011 : Word) = (stateOf (step s)).pc := ⟨by decide, rfl, by decide⟩
/-- The same store one word further on, which the next step fetches as its immediate. -/
theorem test_witness_storeSeen_immediate :
    let s := stateAt defaultConfig 0x0010 [(1, 0x0029), (2, 0x0012)] [(0x0010, 0x1051)]
    s.fetch.dataTransaction s = some (.write 0x0012 0x0029) ∧ (0x0012 : Word) = (stateOf (step s)).pc + 1#16 := by decide
theorem test_witness_pcWraps :
    let s := stateAt defaultConfig 0xFFFF [] [(0xFFFF, 0x0000)]
    s.pc = 0xFFFF#16 ∧ s.fetch.length = 1 ∧ s.fetch = .add 0 0 ∧ step s = .next (stateOf (step s)) :=
  ⟨by decide, by decide, by decide, rfl⟩
theorem test_witness_pcAdvances :
    (Instr.stio 1 2 3).opcode.toNat < 40 ∧ exec (.stio 1 2 3) addState = .next (stateOf (exec (.stio 1 2 3) addState)) ∧
    47 < (Instr.unassigned48 0).opcode.toNat ∧ exec (.unassigned48 0) addState = .next (stateOf (exec (.unassigned48 0) addState)) :=
  ⟨by decide, rfl, by decide, rfl⟩
theorem test_witness_onlyJal : exec (.ld 1 2) oddState = .next (stateOf (exec (.ld 1 2) oddState)) := by rfl
/-- Two states that differ in r3 and r31 alone, which ADD r1, r2 does not use. -/
theorem test_witness_unusedRegisters :
    let s' := (addState.setReg 3 0xBEEF).setReg 31 0xDEAD
    s'.pc = addState.pc ∧ s'.cfg = addState.cfg ∧ s'.draws = addState.draws ∧ s'.mem = addState.mem ∧
    (∀ j ∈ (Instr.add 1 2).uses, s'.reg? j = addState.reg? j) ∧ s' ≠ addState := by decide
theorem test_witness_frame :
    exec (.st 1 2) addState = .next (stateOf (exec (.st 1 2) addState)) ∧ (Instr.st 1 2).storeAddress addState = some 0x0020 :=
  ⟨rfl, by decide⟩
/-- An out-of-range amount under `any`, an unwritten register and an unlisted cell under `unspecified`, and the index moving. -/
theorem test_witness_freeValues_drawn :
    anyConfig.shiftOor = .any ∧ 16 ≤ (0x8000 : Word).toInt.natAbs ∧ oddState.reg? 5 = none ∧ oddState.cell? 0x0040 = none ∧
    exec (.ld 1 2) oddState = .next (stateOf (exec (.ld 1 2) oddState)) ∧ (stateOf (exec (.ld 1 2) oddState)).draws = 1 :=
  ⟨by decide, by decide, by decide, by decide, rfl, by rfl⟩
theorem test_witness_freeValues :
    addState.cfg.draws = false ∧ addState.unwritten = [] ∧ step addState = .next (stateOf (step addState)) :=
  ⟨by decide, by decide, rfl⟩
theorem test_witness_resetValues :
    defaultConfig.resetContents = .zero ∧ unspecifiedConfig.resetContents = .unspecified ∧ (31 : RegIdx) ≠ 0#5 := by decide
theorem test_witness_registerZero :
    runOps (someOps ++ [.writeReg 0#5 0xBEEF]) addState = .next (stateOf (runOps (someOps ++ [.writeReg 0#5 0xBEEF]) addState)) := by
  rfl
theorem test_witness_bootImage : ([(0x0000, 0x0048), (0x0001, 0x0005)].map (Prod.fst (α := Word) (β := Word))).Nodup := by decide
theorem test_witness_engines :
    applyAt 1 .step [addState, doubleState] = .next [addState, stateOf (step doubleState)] ∧ (0 : Nat) ≠ 1 := ⟨rfl, by decide⟩
theorem test_witness_plainStorage : (addState.cell? 0x0001).isSome ∧ defaultConfig.resetContents = .zero := by decide
theorem test_witness_canonical :
    Memory.wf .zero addState.mem ∧ Memory.wf .unspecified [(5, 0x0000)] ∧ ¬ Memory.wf .zero [(5, 0x0000)] := by decide
theorem test_witness_writesCommute : oddState.Inv ∧ (0x0001 : Word) ≠ 0x0002 := by decide

end Sys2Proof.Tests
end

section
/-!
PROOFS. The free values (R30, R76): where the machine draws them each execution moves on to fresh ones; where it draws none
the draw index stands still and influences nothing (00_scope.md R8; log entries 4 and 5).
-/

namespace Sys2Proof

theorem Config.draws_eq_false_iff (c : Config) : c.draws = false ↔ c.shiftOor ≠ .any ∧ c.resetContents = .zero := by
  cases hc : c.resetContents <;> simp [Config.draws, hc]

end Sys2Proof

namespace Sys2Proof.Machine

variable {s t : State} {i : Instr} (n : Nat)

/-! ## Drawing: the free values of the index, and the index moving on -/

/-- Every instruction that completes ends in one `State.tick`. -/
theorem exec_draws (h : exec i s = .next t) : t.draws = if s.cfg.draws then s.draws + 1 else s.draws := by
  obtain ⟨rd, v, p, -, -, rfl⟩ | ⟨rd, a, p, -, -, rfl⟩ | ⟨p, -, -, rfl⟩ := exec_cases h
  · rw [State.finish_draws, State.setReg_cfg, State.setReg_draws]
  · rw [State.finish_draws, State.memWrite_cfg, State.memWrite_draws]
  · exact s.finish_draws p

/-- Out of range under `any` the shifter answers the free value, in whichever direction (R76). -/
theorem shiftSigned_any {e : ShiftEnv} (fwd bwd : Word → Nat → Word) (v : Word) {b : Word} (he : e.oor = .any)
    (hb : 16 ≤ b.toInt.natAbs) : shiftSigned e fwd bwd v b = e.free := by
  have hfree (prim : Word → Nat → Word) : shiftBy e prim v b.toInt.natAbs = e.free := by
    simp [shiftBy, he, Nat.not_lt.2 hb]
  simp only [shiftSigned, hfree, ite_self]

theorem State.reg_of_reg?_none {j : RegIdx} (h : s.reg? j = none) : s.reg j = Config.freeReg s.draws j := by
  simp [State.reg, h]

theorem State.memRead_of_cell?_none {a : Word} (h : s.cell? a = none) : s.memRead a = Config.freeCell s.draws a := by
  simp [State.memRead, h]

/-! ## Not drawing: no read, no write and no shift sees the draw index -/

theorem State.reg_withDraws (h : s.unwritten = []) (j : RegIdx) : ({ s with draws := n } : State).reg j = s.reg j := by
  obtain ⟨w, hw⟩ := Option.isSome_iff_exists.1 (s.reg?_isSome j h)
  rw [s.reg_of_reg? j hw]
  exact State.reg_of_reg? _ j hw

theorem State.memRead_withDraws (h : s.cfg.resetContents = .zero) (a : Word) :
    ({ s with draws := n } : State).memRead a = s.memRead a := by
  obtain ⟨w, hw⟩ := Option.isSome_iff_exists.1 (s.cell?_isSome a h)
  rw [s.memRead_of_cell? a hw]
  exact State.memRead_of_cell? _ a hw

theorem State.fetch_withDraws (h : s.cfg.resetContents = .zero) : ({ s with draws := n } : State).fetch = s.fetch := by
  simp only [State.fetch, State.memRead_withDraws n h]

/-- But under `any` the shifter does not look at the free value (R76). -/
theorem shiftSigned_withDraws (h : s.cfg.shiftOor ≠ .any) (fwd bwd : Word → Nat → Word) (v b : Word) :
    shiftSigned ({ s with draws := n } : State).shiftEnv fwd bwd v b = shiftSigned s.shiftEnv fwd bwd v b := by
  have hby (prim : Word → Nat → Word) (m : Nat) :
      shiftBy ({ s with draws := n } : State).shiftEnv prim v m = shiftBy s.shiftEnv prim v m := by
    cases ho : s.cfg.shiftOor with
    | any => exact absurd ho h
    | full | mod16 => simp only [shiftBy, State.shiftEnv, ho]
  simp only [shiftSigned, hby]

theorem State.setReg_withDraws (rd : RegIdx) (v : Word) :
    ({ s with draws := n } : State).setReg rd v = { s.setReg rd v with draws := n } := by
  unfold State.setReg; split <;> rfl

theorem State.finish_withDraws (h : s.cfg.draws = false) (p : Word) :
    ({ s with draws := n } : State).finish p = { s.finish p with draws := n } := by
  simp only [State.finish, State.tick_eq_self, h]

/-- A register write that ends a step: the shape of the ALU families, the loads and JAL. -/
theorem State.setReg_finish_withDraws (h : s.cfg.draws = false) (rd : RegIdx) (v p : Word) :
    (({ s with draws := n } : State).setReg rd v).finish p = { (s.setReg rd v).finish p with draws := n } := by
  rw [State.setReg_withDraws, State.finish_withDraws n (by rwa [State.setReg_cfg])]

/-- A memory write that ends a step: the shape of the stores. -/
theorem State.memWrite_finish_withDraws (h : s.cfg.draws = false) (a v p : Word) :
    (({ s with draws := n } : State).memWrite a v).finish p = { (s.memWrite a v).finish p with draws := n } :=
  State.finish_withDraws n (s := s.memWrite a v) h p

theorem State.unassigned_withDraws (hd : s.cfg.draws = false) (op : BitVec 6) (h : s.unassigned op = .next t) :
    ({ s with draws := n } : State).unassigned op = .next { t with draws := n } := by
  cases hp : s.cfg.unassigned with
  | nop =>
    simp only [State.unassigned, hp] at h ⊢
    cases h
    rw [State.advance, State.finish_withDraws n hd, State.advance]
  | refuse => rw [s.unassigned_refused op hp] at h; cases h

/-- Where nothing is drawn and nothing is left unwritten, an instruction does the same at every draw index. -/
theorem exec_withDraws (hd : s.cfg.draws = false) (hw : s.unwritten = []) (h : exec i s = .next t) :
    exec i { s with draws := n } = .next { t with draws := n } := by
  obtain ⟨hoor, hzero⟩ := s.cfg.draws_eq_false_iff.1 hd
  have hreg := State.reg_withDraws n hw
  by_cases hu : i.isUnassigned = true
  · rw [exec_unassigned hu] at h ⊢
    exact State.unassigned_withDraws n hd _ h
  have hsetReg := State.setReg_finish_withDraws n hd
  cases i with
  | add | sub | and | or | xor =>
    cases h
    simp only [exec, execAdd, execSub, execAnd, execOr, execXor, State.regAlu, State.advance, State.setReg_pc, hreg, hsetReg]
  | sll | srl | sra =>
    cases h
    simp only [exec, execSll, execSrl, execSra, shlL, shlR, shlA, shiftSigned_withDraws n hoor, State.regAlu, State.advance,
      State.setReg_pc, hreg, hsetReg]
  | addi | andi | ori | xori =>
    cases h
    simp only [exec, execAddi, execAndi, execOri, execXori, State.immAlu, State.advance, State.setReg_pc, hreg, hsetReg]
  | sfti | srai =>
    cases h
    simp only [exec, execSfti, execSrai, shlL, shlA, shiftSigned_withDraws n hoor, State.immAlu, State.advance,
      State.setReg_pc, hreg, hsetReg]
  | ld | ldio =>
    cases h
    simp only [exec, execLd, execLdio, State.eaReg, State.eaOffset, State.memRead_withDraws n hzero, State.advance,
      State.setReg_pc, hreg, hsetReg]
  | st | stio =>
    cases h
    simp only [exec, execSt, execStio, State.eaReg, State.eaOffset, State.advance, State.memWrite_pc, hreg,
      State.memWrite_finish_withDraws n hd]
  | jal =>
    cases h
    simp only [exec, execJal, State.eaOffset, State.link, hreg, hsetReg]
  | jsh =>
    cases h
    exact congrArg _ (State.finish_withDraws n hd _)
  | beq | bne | blt | bge | bltu | bgeu =>
    cases h
    simp only [exec, execBeq, execBne, execBlt, execBge, execBltu, execBgeu, State.branch, hreg,
      State.finish_withDraws n hd]
  | _ => exact absurd rfl hu

theorem step_withDraws (hd : s.cfg.draws = false) (hw : s.unwritten = []) (h : step s = .next t) :
    step { s with draws := n } = .next { t with draws := n } := by
  obtain ⟨-, hzero⟩ := s.cfg.draws_eq_false_iff.1 hd
  rw [step, State.fetch_withDraws n hzero]
  exact exec_withDraws n hd hw h

/-- Settles O50: every completing instruction ends in one tick of the draw index, which no read and no shift sees where
nothing is drawn. -/
theorem freeValuesAreUnobservableByDefault : Obligations.FreeValuesAreUnobservableByDefault := by
  refine ⟨fun _ _ _ => exec_draws, fun s j a o ho => ⟨s.tick, ?_, s.tick_draws⟩, fun s v b hoor hb => ?_,
    fun _ _ => State.reg_of_reg?_none, fun _ _ => State.memRead_of_cell?_none, fun _ _ n => step_withDraws n⟩
  · obtain rfl | rfl : o = .readReg j ∨ o = .readMem a := by simpa using ho
    · rfl
    · rfl
  · have hany (fwd bwd) := shiftSigned_any (e := s.shiftEnv) fwd bwd v hoor hb
    exact ⟨hany shl lsr, hany lsr shl, hany asr shl⟩

end Sys2Proof.Machine
end

section
/-!
PROOFS. What an instruction does as one equation (40_step.md R78 to R81): the word it writes to its target, the word it
stores and the next pc, each read in the state the instruction starts from; and what each of the three depends on.
-/

namespace Sys2Proof

open Sys2Proof.Machine

/-- The word an instruction writes to its target (R78), 0x0000 where it has none. -/
def Instr.result (i : Instr) (s : State) : Word :=
  match i with
  | .add rd rs => aluAdd (s.reg rd) (s.reg rs)
  | .sub rd rs => aluSub (s.reg rd) (s.reg rs)
  | .and rd rs => aluAnd (s.reg rd) (s.reg rs)
  | .or rd rs => aluOr (s.reg rd) (s.reg rs)
  | .xor rd rs => aluXor (s.reg rd) (s.reg rs)
  | .sll rd rs => shlL s.shiftEnv (s.reg rd) (s.reg rs)
  | .srl rd rs => shlR s.shiftEnv (s.reg rd) (s.reg rs)
  | .sra rd rs => shlA s.shiftEnv (s.reg rd) (s.reg rs)
  | .addi _ rs imm => aluAdd (s.reg rs) imm
  | .andi _ rs imm => aluAnd (s.reg rs) imm
  | .ori _ rs imm => aluOr (s.reg rs) imm
  | .xori _ rs imm => aluXor (s.reg rs) imm
  | .sfti _ rs imm => shlL s.shiftEnv (s.reg rs) imm
  | .srai _ rs imm => shlA s.shiftEnv (s.reg rs) imm
  | .ld _ rs => s.memRead (s.eaReg rs)
  | .ldio _ rs imm => s.memRead (s.eaOffset rs imm)
  | .jal _ _ _ => s.link
  | _ => 0x0000#16

/-- The word an instruction stores (R79), 0x0000 where it stores nothing. -/
def Instr.storeData (i : Instr) (s : State) : Word :=
  match i with
  | .st rd _ | .stio rd _ _ => s.reg rd
  | _ => 0x0000#16

/-- The pc after a conditional branch (R80 `BR`). -/
def Machine.State.branchTarget (s : State) (c : Cond) (rd rs : RegIdx) (imm : Word) : Word :=
  if c.holds (s.reg rd) (s.reg rs) then imm else s.pc + 2#16

/-- The pc after an instruction (R80). -/
def Instr.nextPc (i : Instr) (s : State) : Word :=
  match i with
  | .jal _ rs imm => s.eaOffset rs imm
  | .jsh off => s.shortTarget off
  | .beq rd rs imm => s.branchTarget .eq rd rs imm
  | .bne rd rs imm => s.branchTarget .ne rd rs imm
  | .blt rd rs imm => s.branchTarget .ltS rd rs imm
  | .bge rd rs imm => s.branchTarget .geS rd rs imm
  | .bltu rd rs imm => s.branchTarget .ltU rd rs imm
  | .bgeu rd rs imm => s.branchTarget .geU rd rs imm
  | i => s.pc + BitVec.ofNat 16 i.length

/-- The register write of an instruction, if it has a target. -/
def Instr.writeTarget (i : Instr) (s : State) : State :=
  match i.target with
  | some rd => s.setReg rd (i.result s)
  | none => s

/-- What an instruction that completes leaves (R81): its register write, its store and the pc update. -/
def Instr.effect (i : Instr) (s : State) : State :=
  let u := match i.storeAddress s with
    | some a => (i.writeTarget s).memWrite a (i.storeData s)
    | none => i.writeTarget s
  u.finish (i.nextPc s)

/-- Does the instruction have a meaning under the parameters `c` (R120, R121)? -/
def Instr.Completes (i : Instr) (c : Config) : Prop := i.isUnassigned = true → c.unassigned = .nop

end Sys2Proof

namespace Sys2Proof.Machine

variable {i : Instr} {s s' t : State} (j : RegIdx) (a : Word)

/-! ## The equation -/

/-- A register write does not move the pc the step advances from. -/
theorem State.setReg_advance (v n : Word) : (s.setReg j v).advance n = (s.setReg j v).finish (s.pc + n) := by
  rw [State.advance, State.setReg_pc]

/-- An unassigned instruction writes nothing and advances by one word (R120). -/
theorem effect_unassigned (h : i.isUnassigned = true) : i.effect s = s.advance 1#16 := by
  cases i with
  | add | sub | and | or | xor | sll | srl | sra | addi | andi | ori | xori | sfti | srai | ld | st | ldio | stio | jal | jsh
  | beq | bne | blt | bge | bltu | bgeu => exact absurd h Bool.false_ne_true
  | _ => rfl

/-- An instruction that has a meaning leaves its effect. -/
theorem exec_eq_effect (h : i.Completes s.cfg) : exec i s = .next (i.effect s) := by
  by_cases hu : i.isUnassigned = true
  · rw [exec_unassigned hu, effect_unassigned hu, State.unassigned, h hu]
  cases i with
  | add | sub | and | or | xor | sll | srl | sra | addi | andi | ori | xori | sfti | srai | ld | ldio =>
    exact congrArg Host.Outcome.next (State.setReg_advance _ _ _)
  | st | stio | jal | jsh | beq | bne | blt | bge | bltu | bgeu => rfl
  | _ => exact absurd rfl hu

theorem exec_next_iff : exec i s = .next t ↔ i.Completes s.cfg ∧ t = i.effect s := by
  refine ⟨fun h => ?_, fun ⟨hc, ht⟩ => ht ▸ exec_eq_effect hc⟩
  have hc : i.Completes s.cfg := fun hu => by
    cases hp : s.cfg.unassigned with
    | nop => rfl
    | refuse => rw [exec_unassigned hu, s.unassigned_refused _ hp] at h; cases h
  rw [exec_eq_effect hc] at h
  exact ⟨hc, (Host.Outcome.next.inj h).symm⟩

/-! ## What the effect leaves -/

@[simp] theorem effect_pc : (i.effect s).pc = i.nextPc s := rfl

theorem writeTarget_reg? :
    (i.writeTarget s).reg? j = if i.target = some j ∧ j ≠ 0#5 then some (i.result s) else s.reg? j := by
  unfold Instr.writeTarget
  split
  next rd h =>
    rw [State.reg?_setReg, h]
    by_cases hj : j = rd
    · simp [hj]
    · simp [hj, Ne.symm hj]
  next h => simp [h]

@[simp] theorem writeTarget_mem : (i.writeTarget s).mem = s.mem := by
  unfold Instr.writeTarget; split <;> simp

@[simp] theorem writeTarget_cfg : (i.writeTarget s).cfg = s.cfg := by
  unfold Instr.writeTarget; split <;> simp

/-- Of the registers an effect changes its target alone, and r0 never (R17, R18). -/
theorem effect_reg? :
    (i.effect s).reg? j = if i.target = some j ∧ j ≠ 0#5 then some (i.result s) else s.reg? j := by
  rw [← writeTarget_reg?]
  unfold Instr.effect
  split <;> rfl

theorem effect_mem : (i.effect s).mem =
    ((i.storeAddress s).map fun a => Memory.write s.cfg.resetContents s.mem a.toNat (i.storeData s)).getD s.mem := by
  unfold Instr.effect
  split
  next a h => simp [h, State.memWrite]
  next h => simp [h]

@[simp] theorem effect_cfg : (i.effect s).cfg = s.cfg := by
  unfold Instr.effect; split <;> simp

/-! ## What the effect depends on -/

/-- `s'` agrees with `s` on the registers `i` uses (the table of R18) and on everything else `i` may read but the pc. -/
structure SameInputs (i : Instr) (s s' : State) : Prop where
  cfg : s'.cfg = s.cfg
  draws : s'.draws = s.draws
  mem : s'.mem = s.mem
  used : ∀ j ∈ i.uses, s'.reg? j = s.reg? j

theorem SameInputs.reg (h : SameInputs i s s') : ∀ j ∈ i.uses, s'.reg j = s.reg j := fun j hj => by
  rw [State.reg, State.reg, h.used j hj, h.draws]

theorem SameInputs.memRead (h : SameInputs i s s') : s'.memRead a = s.memRead a := by
  simp only [State.memRead, State.cell?, h.mem, h.cfg, h.draws]

theorem SameInputs.shiftEnv (h : SameInputs i s s') : s'.shiftEnv = s.shiftEnv := by
  simp only [State.shiftEnv, h.cfg, h.draws]

/-- The word written: only JAL's is made from the pc (R20). -/
theorem SameInputs.result (h : SameInputs i s s') (hpc : ∀ rd rs imm, i = .jal rd rs imm → s'.pc = s.pc) :
    i.result s' = i.result s := by
  have hreg := h.reg
  cases i with
  | add | sub | and | or | xor | sll | srl | sra =>
    simp only [Instr.uses, List.forall_mem_cons] at hreg
    simp only [Instr.result, hreg, h.shiftEnv]
  | addi | andi | ori | xori | sfti | srai =>
    simp only [Instr.uses, List.forall_mem_singleton] at hreg
    simp only [Instr.result, hreg, h.shiftEnv]
  | ld | ldio =>
    simp only [Instr.uses, List.forall_mem_singleton] at hreg
    simp only [Instr.result, State.eaReg, State.eaOffset, hreg, h.memRead]
  | jal rd rs imm => simp only [Instr.result, State.link, hpc rd rs imm rfl]
  | _ => rfl

theorem SameInputs.storeAddress (h : SameInputs i s s') : i.storeAddress s' = i.storeAddress s := by
  have hreg := h.reg
  cases i with
  | st | stio =>
    simp only [Instr.uses, List.forall_mem_cons] at hreg
    simp only [Instr.storeAddress, State.eaReg, State.eaOffset, hreg]
  | _ => rfl

theorem SameInputs.storeData (h : SameInputs i s s') : i.storeData s' = i.storeData s := by
  have hreg := h.reg
  cases i with
  | st | stio =>
    simp only [Instr.uses, List.forall_mem_cons] at hreg
    simp only [Instr.storeData, hreg]
  | _ => rfl

theorem SameInputs.nextPc (h : SameInputs i s s') (hpc : s'.pc = s.pc) : i.nextPc s' = i.nextPc s := by
  have hreg := h.reg
  cases i with
  | beq | bne | blt | bge | bltu | bgeu =>
    simp only [Instr.uses, List.forall_mem_cons] at hreg
    simp only [Instr.nextPc, State.branchTarget, hreg, hpc]
  | jal =>
    simp only [Instr.uses, List.forall_mem_singleton] at hreg
    simp only [Instr.nextPc, State.eaOffset, hreg]
  | jsh => simp only [Instr.nextPc, State.shortTarget, hpc]
  | _ => exact congrArg (· + _) hpc

/-- The memory left does not depend on the pc, for JAL neither. -/
theorem SameInputs.effect_mem (h : SameInputs i s s') : (i.effect s').mem = (i.effect s).mem := by
  rw [Machine.effect_mem, Machine.effect_mem, h.storeAddress, h.storeData, h.cfg, h.mem]

theorem SameInputs.effect_cell? (h : SameInputs i s s') : (i.effect s').cell? a = (i.effect s).cell? a := by
  rw [State.cell?, State.cell?, h.effect_mem, effect_cfg, effect_cfg, h.cfg]

/-- A register that the two states agree on, or that is the target, holds the same word after the instruction. -/
theorem SameInputs.effect_reg? (h : SameInputs i s s') (hpc : ∀ rd rs imm, i = .jal rd rs imm → s'.pc = s.pc)
    (hj : i.target = some j ∨ s'.reg? j = s.reg? j) : (i.effect s').reg? j = (i.effect s).reg? j := by
  rw [Machine.effect_reg?, Machine.effect_reg?, h.result hpc]
  by_cases h0 : j = 0#5
  · subst h0; simp
  · obtain ht | hs := hj
    · simp [ht, h0]
    · rw [hs]

/-- What an instruction can do from two states with the same inputs: it completes from both or from neither. -/
theorem SameInputs.exec_next (h : SameInputs i s s') (he : exec i s = .next t) :
    t = i.effect s ∧ exec i s' = .next (i.effect s') := by
  obtain ⟨hc, ht⟩ := exec_next_iff.1 he
  exact ⟨ht, exec_eq_effect (by rwa [h.cfg])⟩

/-! ## The next pc -/

/-- Outside the control transfers the pc advances by the length (R21, R80). -/
theorem nextPc_eq_add_length (h : i.opcode.toNat < 40 ∨ 47 < i.opcode.toNat) :
    i.nextPc s = s.pc + BitVec.ofNat 16 i.length := by
  cases i with
  | jal | jsh | beq | bne | blt | bge | bltu | bgeu => simp [Instr.opcode] at h
  | _ => rfl

/-- The only control transfer of one word is JSH (R55). -/
theorem opcode_outside_transfers (hlen : i.length = 1) (hj : ∀ off, i ≠ .jsh off) :
    i.opcode.toNat < 40 ∨ 47 < i.opcode.toNat := by
  cases i with
  | jsh off => exact absurd rfl (hj off)
  | jal | beq | bne | blt | bge | bltu | bgeu => simp [Instr.length, Instr.opcode, usesImm] at hlen
  | _ => simp [Instr.opcode]

/-! ## The obligations on one instruction -/

/-- Settles O46: the next pc is part of the effect. -/
theorem pcAdvancesByTheLength : Obligations.PcAdvancesByTheLength := by
  intro i s t hop h
  obtain ⟨-, rfl⟩ := exec_next_iff.1 h
  rw [effect_pc, nextPc_eq_add_length hop]

/-- Settles O45: 0xFFFF + 1 is 0x0000; the type of faults is empty; and completing does not depend on the pc. -/
theorem programCounterWraps : Obligations.ProgramCounterWraps := by
  refine ⟨fun s t hpc hlen hj h => ?_, fun _ f => ?_, fun s p hnop => ⟨_, exec_eq_effect fun _ => hnop⟩⟩
  · rw [pcAdvancesByTheLength _ s t (opcode_outside_transfers hlen hj) h, hpc, hlen]
    rfl
  · cases f

/-- Settles O47: two states that differ in the pc alone have the same inputs. -/
theorem onlyJalCopiesThePc : Obligations.OnlyJalCopiesThePc := by
  intro i s t p hjal h
  have hin : SameInputs i s { s with pc := p } := ⟨rfl, rfl, rfl, fun _ _ => rfl⟩
  obtain ⟨rfl, h'⟩ := hin.exec_next h
  exact ⟨_, h', fun j => hin.effect_reg? j (fun rd rs imm e => absurd e (hjal rd rs imm)) (.inr rfl),
    fun a => hin.effect_cell? a⟩

/-- Settles O48: the next pc, the memory and the word written depend on the used registers alone. -/
theorem unusedRegistersDoNotMatter : Obligations.UnusedRegistersDoNotMatter := by
  intro i s s' t hpc hcfg hdraws hmem hused h
  have hin : SameInputs i s s' := ⟨hcfg, hdraws, hmem, hused⟩
  obtain ⟨rfl, h'⟩ := hin.exec_next h
  exact ⟨_, h', hin.nextPc hpc, hin.effect_mem, fun d hd => hin.effect_reg? d (fun _ _ _ _ => hpc) (.inl hd)⟩

/-- Settles O49: a case for each thing an instruction can write. -/
theorem everyInstructionsFrame : Obligations.EveryInstructionsFrame := by
  intro i s t h
  obtain ⟨rd, v, p, ht, hs, rfl⟩ | ⟨rd, a, p, ht, hs, rfl⟩ | ⟨p, ht, hs, rfl⟩ := exec_cases h
  · refine ⟨fun j hj => ?_, fun a _ => by simp, fun _ => hs, rfl⟩
    have hne : j ≠ rd := fun e => hj (by rw [ht, e])
    simp [State.reg?_setReg, hne]
  · refine ⟨fun _ _ => rfl, fun b hb => ?_, fun hi => by simp [ht] at hi, rfl⟩
    have hne : b ≠ a := fun e => hb (by rw [hs, e])
    simp [State.cell?_memWrite, hne]
  · exact ⟨fun _ _ => rfl, fun _ _ => rfl, fun _ => hs, rfl⟩

end Sys2Proof.Machine
end

section
/-!
PROOFS. Runs of steps and host operations (40_step.md R84, R88), and the state after reset (10_state.md R27 to R31).
-/

namespace Sys2Proof.Machine

variable {s t : State} {o : BoundaryOp} {os ps : List BoundaryOp}

/-! ## Runs -/

theorem runOps_cons_eq_next_iff : runOps (o :: os) s = .next t ↔ ∃ u, o.apply s = .next u ∧ runOps os u = .next t := by
  rw [runOps]
  cases o.apply s <;> simp

theorem runOps_append_eq_next_iff :
    runOps (os ++ ps) s = .next t ↔ ∃ u, runOps os s = .next u ∧ runOps ps u = .next t := by
  induction os generalizing s with
  | nil => simp [runOps]
  | cons o os ih =>
    simp only [List.cons_append, runOps_cons_eq_next_iff, ih]
    exact ⟨fun ⟨v, hv, u, hu, ht⟩ => ⟨u, ⟨v, hv, hu⟩, ht⟩, fun ⟨u, ⟨v, hv, hu⟩, ht⟩ => ⟨v, hv, u, hu, ht⟩⟩

/-- What every operation keeps holds at the end of every run that it holds at the start of. -/
theorem runOps_keeps {P : State → Prop} (hop : ∀ (o : BoundaryOp) (s t : State), P s → o.apply s = .next t → P t)
    (hs : P s) (h : runOps os s = .next t) : P t := by
  induction os generalizing s with
  | nil => cases h; exact hs
  | cons o os ih =>
    obtain ⟨u, hu, ht⟩ := runOps_cons_eq_next_iff.1 h
    exact ih (hop o s u hs hu) ht

theorem exec_cfg {i : Instr} (h : exec i s = .next t) : t.cfg = s.cfg := by
  obtain ⟨-, rfl⟩ := exec_next_iff.1 h
  exact effect_cfg

theorem BoundaryOp.apply_cfg (h : o.apply s = .next t) : t.cfg = s.cfg := by
  cases o with
  | step => exact exec_cfg h
  | writeReg i v => cases h; exact s.setReg_cfg i v
  | readReg | readMem | writeMem | readPc | writePc => cases h; rfl

/-- Settles O38: every operation keeps the parameters, so every run does. -/
theorem parametersNeverChange : Obligations.ParametersNeverChange := fun _ s _ h =>
  runOps_keeps (P := fun u => u.cfg = s.cfg) (fun _ _ _ hu ho => (BoundaryOp.apply_cfg ho).trans hu) rfl h

/-- Settles O52: r0 has no slot, so the last operation of the run leaves the state it found. -/
theorem registerZeroReadsZero : Obligations.RegisterZeroReadsZero := by
  refine ⟨fun s v => ⟨s.setReg_zero v, s.reg_zero⟩, fun os v s t h => ?_⟩
  obtain ⟨u, hu, hw⟩ := runOps_append_eq_next_iff.1 h
  have htu : u = t := Host.Outcome.next.inj hw
  exact ⟨htu ▸ hu, congrArg some t.reg_zero⟩

/-! ## Reset -/

theorem mem_writableRegs : ∀ j : RegIdx, j ∈ writableRegs ↔ j ≠ 0#5 := by decide

theorem State.resetWith_cell? (c : Config) (a : Word) : (State.resetWith c).cell? a = c.resetContents.cell := rfl

/-- Under `zero` no register is left unwritten (R28). -/
theorem State.resetWith_unwritten_zero {c : Config} (h : c.resetContents = .zero) : (State.resetWith c).unwritten = [] := by
  simp [State.resetWith, h]

theorem State.resetWith_reg?_zero {c : Config} (h : c.resetContents = .zero) (j : RegIdx) :
    (State.resetWith c).reg? j = some 0x0000#16 := by
  rw [State.reg?, State.resetWith_unwritten_zero h]
  simp [State.resetWith]

/-- Under `unspecified` only r0 holds a specified value (R30). -/
theorem State.resetWith_reg?_unspecified {c : Config} (h : c.resetContents = .unspecified) {j : RegIdx} (hj : j ≠ 0#5) :
    (State.resetWith c).reg? j = none := by
  have hmem : j ∈ (State.resetWith c).unwritten := by simp [State.resetWith, h, mem_writableRegs, hj]
  rw [State.reg?, if_neg hj, if_pos hmem]

/-- Settles O36: no cell is listed, and under `zero` no register is left unwritten. -/
theorem resetMeetsTheInvariant : Obligations.ResetMeetsTheInvariant := fun c =>
  ⟨Memory.wf_nil c.resetContents, State.resetWith_unwritten_zero⟩

/-- Settles O51: the registers and cells of `State.resetWith` under each `RESET_CONTENTS`. -/
theorem resetValues : Obligations.ResetValues := by
  refine fun c => ⟨rfl, rfl, fun hz => ⟨State.resetWith_reg?_zero hz, fun a => ?_⟩,
    fun hu => ⟨fun j => State.resetWith_reg?_unspecified hu, fun a => ?_⟩⟩
  · rw [State.resetWith_cell?, hz, ResetContents.cell]
  · rw [State.resetWith_cell?, hu, ResetContents.cell]

end Sys2Proof.Machine
end

section
/-!
PROOFS. The memory (20_memory.md R32 to R47): the canonical list, the cells a step leaves, and the transactions of a step.
-/

namespace Sys2Proof

open Sys2Proof.Machine

variable {i : Instr} {s : State} {a v : Word}

/-- The opcode map gives each opcode the entry of that opcode (R54). -/
@[simp] theorem opcode_decodeFields (op : BitVec 6) (rs rd : RegIdx) (off : BitVec 10) (imm : Word) :
    (decodeFields op rs rd off imm).opcode = op := by
  obtain ⟨⟨n, hn⟩⟩ := op
  interval_cases n <;> rfl

/-- A data write is the store of an instruction: its address and its word (R47, R79). -/
theorem dataTransaction_eq_write_iff :
    i.dataTransaction s = some (.write a v) ↔ i.storeAddress s = some a ∧ i.storeData s = v := by
  cases i with
  | ld | ldio => simp [Instr.dataTransaction, Instr.storeAddress]
  | st | stio =>
    simp only [Instr.dataTransaction, Instr.storeAddress, Instr.storeData, State.eaReg, State.eaOffset, Option.some.injEq,
      Transaction.write.injEq]
  | _ => simp [Instr.dataTransaction, Instr.storeAddress]

/-- The instructions that store are no control transfers: after them the pc has advanced by their length (R80). -/
theorem nextPc_of_storeAddress (h : i.storeAddress s = some a) : i.nextPc s = s.pc + BitVec.ofNat 16 i.length := by
  cases i with
  | st | stio => rfl
  | _ => cases h

/-- Where the decoder raises no memory signal the instruction has no data transaction (R72). -/
theorem dataTransaction_eq_none (h : (controls i.opcode).mem = none) : i.dataTransaction s = none := by
  cases i with
  | ld | st | ldio | stio => cases h
  | _ => rfl

end Sys2Proof

namespace Sys2Proof.Machine

variable {i : Instr} {s t : State} (a b v : Word)

/-! ## The list -/

/-- A canonical list has a cell exactly where the lookup finds it. -/
theorem Memory.mem_iff_lookup {m : Memory} (h : m.Pairwise (fun c d => c.1 < d.1)) (c : Cell) :
    c ∈ m ↔ m.lookup c.1 = some c.2 := by
  induction m with
  | nil => simp
  | cons d m ih =>
    obtain ⟨hd, hm⟩ := List.pairwise_cons.1 h
    rw [List.mem_cons, ih hm, Memory.lookup]
    split
    next hcd =>
      have hnot : Memory.lookup m c.1 ≠ some c.2 := fun hc => by
        have hlt := hd c ((ih hm).2 hc)
        omega
      rw [or_iff_left hnot, Prod.ext_iff, Option.some_inj, eq_comm (a := d.2)]
      exact and_iff_right hcd
    next hcd =>
      exact or_iff_right fun e => hcd (congrArg Prod.fst e)

/-- In a canonical list no lookup finds the value that an unlisted address holds. -/
theorem Memory.lookup_ne_cell {rc : ResetContents} {m : Memory} (h : m.wf rc) {a : Nat} {v : Word}
    (hv : m.lookup a = some v) : rc.cell ≠ some v :=
  (h.2 (a, v) ((Memory.mem_iff_lookup h.1 (a, v)).2 hv)).2

/-- Canonical lists that hold the same word at an address list the same there. -/
theorem Memory.lookup_eq_of_or_eq {rc : ResetContents} {m m' : Memory} (h : m.wf rc) (h' : m'.wf rc) {a : Nat}
    (heq : (m.lookup a).or rc.cell = (m'.lookup a).or rc.cell) : m.lookup a = m'.lookup a := by
  cases hm : m.lookup a with
  | none =>
    cases hm' : m'.lookup a with
    | none => rfl
    | some w => exact absurd (by simpa [hm, hm'] using heq) (Memory.lookup_ne_cell h' hm')
  | some v =>
    cases hm' : m'.lookup a with
    | none => exact absurd (by simpa [hm, hm'] using heq.symm) (Memory.lookup_ne_cell h hm)
    | some w => simpa [hm, hm'] using heq

/-- Settles O59: the two lists have the same cells, and strictly rising addresses leave one order for them. -/
theorem canonicalMemoriesAreEqualData : Obligations.CanonicalMemoriesAreEqualData := by
  intro rc m m' h h' heq
  have hmem (c : Cell) : c ∈ m ↔ c ∈ m' := by
    rw [Memory.mem_iff_lookup h.1, Memory.mem_iff_lookup h'.1, Memory.lookup_eq_of_or_eq h h' (heq c.1)]
  have hnodup {l : Memory} (hl : l.wf rc) : l.Nodup := hl.1.imp fun hlt e => by simp [e] at hlt
  have hperm : m.Perm m' := (List.perm_ext_iff_of_nodup (hnodup h) (hnodup h')).2 hmem
  exact hperm.eq_of_pairwise (fun c d _ _ hcd hdc => absurd hcd (Nat.lt_asymm hdc)) h.1 h'.1

theorem Memory.insert_insert_self (m : Memory) (a : Nat) (v w : Word) : (m.insert a v).insert a w = m.insert a w := by
  induction m with
  | nil => simp [Memory.insert]
  | cons c m ih =>
    rcases Nat.lt_trichotomy a c.1 with h | h | h
    · simp [Memory.insert, h]
    · simp [Memory.insert, h]
    · have h1 : ¬ a < c.1 := by omega
      have h2 : a ≠ c.1 := by omega
      simp [Memory.insert, h1, h2, ih]

/-- On any list, canonical or not. -/
theorem Memory.write_write_self (rc : ResetContents) (m : Memory) (a : Nat) (v : Word) :
    (m.write rc a v).write rc a v = m.write rc a v := by
  unfold Memory.write
  split
  · simp [Memory.erase]
  · exact Memory.insert_insert_self m a v v

/-! ## The cells -/

theorem State.memRead_memWrite : (s.memWrite a v).memRead b = if b = a then v else s.memRead b := by
  rw [State.memRead, State.cell?_memWrite]
  split <;> rfl

/-- Settles O58: the list's laws at the level of the state. -/
theorem memoryIsPlainStorage : Obligations.MemoryIsPlainStorage := by
  refine ⟨fun s a b v => State.memRead_memWrite a b v, fun s a v => ?_,
    fun s a => ⟨s.tick, rfl, s.finish_onlyPc s.pc, ?_⟩, fun c a hz => ?_⟩
  · exact congrArg (fun m => { s with mem := m }) (Memory.write_write_self _ _ _ v)
  · intro hsome
    obtain ⟨w, hw⟩ := Option.isSome_iff_exists.1 hsome
    exact congrArg some ((State.memRead_of_cell? s.tick a hw).trans (s.memRead_of_cell? a hw).symm)
  · refine State.memRead_of_cell? _ a ?_
    rw [State.resetWith_cell?, hz, ResetContents.cell]

/-- Settles O60: both orders leave a canonical list that holds the same word at every address. -/
theorem writesToDifferentCellsCommute : Obligations.WritesToDifferentCellsCommute := by
  intro s a b v w hinv hne
  have hab : a.toNat ≠ b.toNat := fun e => hne (BitVec.eq_of_toNat_eq e)
  have hmem : ((s.memWrite a v).memWrite b w).mem = ((s.memWrite b w).memWrite a v).mem := by
    refine canonicalMemoriesAreEqualData s.cfg.resetContents _ _ ?_ ?_ fun k => ?_
    · exact (State.memWrite_inv _ b w (s.memWrite_inv a v hinv)).1
    · exact (State.memWrite_inv _ a v (s.memWrite_inv b w hinv)).1
    · simp only [State.memWrite, Memory.lookup_write]
      by_cases hk : k = a.toNat
      · simp [hk, hab]
      · simp [hk]
  exact congrArg (fun m => { s with mem := m }) hmem

/-- Settles O56: the high byte is shifted by 8 bits, which the low byte then fills. -/
theorem loaderAssemblesBigEndian : Obligations.LoaderAssemblesBigEndian := by
  intro b0 b1
  rw [assembleWord, BitVec.toNat_append, ← Nat.shiftLeft_add_eq_or_of_lt b1.isLt, Nat.shiftLeft_eq]

/-! ## The step -/

/-- Of the cells an effect changes the one at the store address alone. -/
theorem effect_cell? :
    (i.effect s).cell? a = if i.storeAddress s = some a then some (i.storeData s) else s.cell? a := by
  have hmem := effect_mem (i := i) (s := s)
  cases h : i.storeAddress s with
  | none =>
    rw [h] at hmem
    simp [State.cell?, hmem]
  | some b =>
    rw [h] at hmem
    simp only [State.cell?, hmem, effect_cfg, Option.map_some, Option.getD_some, Memory.lookup_write, BitVec.toNat_inj,
      Option.some.injEq, eq_comm]

/-- A register write leaves no register without a specified value that held one. -/
theorem State.mem_unwritten_of_setReg {j rd : RegIdx} (h : j ∈ (s.setReg rd v).unwritten) : j ∈ s.unwritten := by
  unfold State.setReg at h
  split at h
  · exact h
  · exact List.mem_of_mem_filter h

/-- A memory write leaves no cell without a specified value that held one. -/
theorem State.cell?_memWrite_isSome (h : (s.cell? b).isSome) : ((s.memWrite a v).cell? b).isSome := by
  rw [State.cell?_memWrite]
  split
  · rfl
  · exact h

theorem step_next_iff : step s = .next t ↔ s.fetch.Completes s.cfg ∧ t = s.fetch.effect s := exec_next_iff

/-- Settles O35: a step is a register write, a store or neither, and then its end; each of the three keeps the invariant and
leaves nothing without a value. -/
theorem stepKeepsTheInvariant : Obligations.StepKeepsTheInvariant := by
  intro s t h
  obtain ⟨rd, v, p, -, -, rfl⟩ | ⟨rd, a, p, -, -, rfl⟩ | ⟨p, -, -, rfl⟩ := exec_cases h
  · exact ⟨s.setReg_inv rd v, fun j hj => State.mem_unwritten_of_setReg v hj, fun a ha => by simpa using ha⟩
  · exact ⟨s.memWrite_inv a _, fun _ hj => hj, fun b hb => State.cell?_memWrite_isSome a b _ hb⟩
  · exact ⟨id, fun _ hj => hj, fun _ ha => ha⟩

/-- The data transaction of an instruction does to memory what its effect does. -/
theorem dataTransaction_cell? :
    ((i.dataTransaction s).toList.foldl Transaction.apply s).cell? a = (i.effect s).cell? a := by
  rw [effect_cell?]
  cases i with
  | st | stio =>
    refine (State.cell?_memWrite _ _ _ _).trans ?_
    simp [Instr.storeAddress, Instr.storeData, State.eaReg, State.eaOffset, eq_comm]
  | _ => rfl

/-- The four rows of R72 with a memory signal. -/
theorem controls_mem_cases :
    ∀ op : BitVec 6, (op = 16#6 ∨ op = 17#6 ∨ op = 24#6 ∨ op = 25#6) ∨ (controls op).mem = none := by decide

/-- The control signals raise the data transaction of the fetched instruction, after the two fetches (R47, R72). -/
theorem State.transactions_eq :
    s.transactions = .read s.pc (s.memRead s.pc) :: .read (s.pc + 1#16) (s.memRead (s.pc + 1#16))
      :: (s.fetch.dataTransaction s).toList := by
  have hc {op : BitVec 6} (h : fieldOp (s.memRead s.pc) = op) : s.controls = Machine.controls op :=
    congrArg Machine.controls h
  obtain hop | h := controls_mem_cases (fieldOp (s.memRead s.pc))
  · rcases hop with h | h | h | h <;>
      (simp only [State.transactions, State.dataRead, State.dataAddr, State.aluOut, hc h, State.fetch, decode, h]
       rfl)
  · have hnone : s.fetch.dataTransaction s = none :=
      dataTransaction_eq_none (by rwa [State.fetch, decode, opcode_decodeFields])
    simp only [State.transactions, hc rfl, h, hnone]
    rfl

/-- Settles O42: the two fetches write nothing, and the data transaction does to memory what the effect does. -/
theorem transactionsOfAStep : Obligations.TransactionsOfAStep := by
  refine fun s => ⟨State.transactions_eq, fun t h a => ?_⟩
  obtain ⟨-, rfl⟩ := step_next_iff.1 h
  rw [State.transactions_eq]
  exact (dataTransaction_cell? a).symm

/-- Settles O44: the effect leaves the word at the store address, where the next reads and the next fetch find it. -/
theorem storeIsSeenByTheNextFetch : Obligations.StoreIsSeenByTheNextFetch := by
  intro s t a v hdata h
  obtain ⟨-, rfl⟩ := step_next_iff.1 h
  obtain ⟨haddr, hv⟩ := dataTransaction_eq_write_iff.1 hdata
  have hread : (s.fetch.effect s).memRead a = v :=
    State.memRead_of_cell? _ a (by rw [effect_cell?, if_pos haddr, hv])
  refine ⟨hread, fun e => ?_, fun e => ?_, nextPc_of_storeAddress haddr⟩
  · rw [State.fetch, ← e, hread]
  · rw [State.fetch, ← e, hread]

end Sys2Proof.Machine
end

section
/-!
PROOFS. The encoding (30_encoding.md R48 to R61): the fields of a word as numbers, what each entry of the opcode map carries,
and that decoding and encoding undo each other.
-/

namespace Sys2Proof

open Sys2Proof.Machine Sys2Proof.Claims

variable {i : Instr} {iw : Word} (imm : Word) (op : BitVec 6) (rs rd : RegIdx) (off : BitVec 10)

/-! ## The fields as numbers -/

theorem fieldS_toNat (iw : Word) : (fieldS iw).toNat = iw.toNat / 2048 := by
  have := iw.isLt
  rw [fieldS, BitVec.extractLsb'_toNat, Nat.shiftRight_eq_div_pow]
  omega

theorem fieldD_toNat (iw : Word) : (fieldD iw).toNat = iw.toNat / 64 % 32 := by
  rw [fieldD, BitVec.extractLsb'_toNat, Nat.shiftRight_eq_div_pow]

theorem fieldOp_toNat (iw : Word) : (fieldOp iw).toNat = iw.toNat % 64 := by
  rw [fieldOp, BitVec.extractLsb'_toNat, Nat.shiftRight_zero]

/-- `OFF = {S, D}` (R49). -/
theorem fieldOff_eq_append (iw : Word) : fieldOff iw = fieldS iw ++ fieldD iw := by
  conv_lhs => rw [← wordOfFields_fields iw, fieldOff_wordOfFields]

theorem fieldOff_toNat (iw : Word) : (fieldOff iw).toNat = iw.toNat / 64 := by
  have := iw.isLt
  rw [fieldOff, BitVec.extractLsb'_toNat, Nat.shiftRight_eq_div_pow]
  omega

theorem fieldOff_msb (iw : Word) : (fieldOff iw).msb = iw.getLsbD 15 := by
  simp [fieldOff, BitVec.msb_eq_getLsbD_last]

/-- The ten bits of a JSH offset hold the values -512 to 511 (R53). -/
theorem offset_bounds : -512 ≤ off.toInt ∧ off.toInt ≤ 511 := by
  have hlow := off.le_toInt
  have hhigh := off.toInt_lt
  omega

/-! ## The entries of the opcode map -/

theorem wellFormed_jsh_iff {off : Int} : (Instr.jsh off).wellFormed = true ↔ -512 ≤ off ∧ off ≤ 511 := by
  simp [Instr.wellFormed]

/-- No word has an entry without an encoding: OFF is within JSH's range (R53, R56). -/
theorem wellFormed_decodeFields : (decodeFields op rs rd off imm).wellFormed = true := by
  obtain ⟨⟨n, hn⟩⟩ := op
  interval_cases n
  any_goals rfl
  -- What is left is JSH's entry.
  exact wellFormed_jsh_iff.2 (offset_bounds off)

theorem immediate_decodeFields :
    (decodeFields op rs rd off imm).immediate = if usesImm op then some imm else none := by
  obtain ⟨⟨n, hn⟩⟩ := op
  interval_cases n <;> rfl

theorem isUnassigned_decodeFields :
    (decodeFields op rs rd off imm).isUnassigned = decide (op.toNat ∈ unassignedOpcodes) := by
  obtain ⟨⟨n, hn⟩⟩ := op
  interval_cases n <;> rfl

/-- Each entry's word is put together from the fields it was selected with (R57). -/
theorem encodeWord_decodeFields :
    encodeWord (decodeFields op rs rd (rs ++ rd) imm) = wordOfFields rs rd op := by
  obtain ⟨⟨n, hn⟩⟩ := op
  interval_cases n
  any_goals rfl
  -- What is left is JSH's entry.
  exact congrArg (wordOfUpper · 41#6) BitVec.ofInt_toInt

theorem opcode_decode (iw imm : Word) : (decode iw imm).opcode = fieldOp iw := opcode_decodeFields _ _ _ _ _

theorem encodeWord_decode (iw imm : Word) : encodeWord (decode iw imm) = iw := by
  rw [decode, fieldOff_eq_append, encodeWord_decodeFields, wordOfFields_fields]

/-- The one opcode that reads OFF as a number (R49). -/
theorem decode_of_fieldOp_jsh (h : (fieldOp iw).toNat = 41) : decode iw imm = .jsh (fieldOff iw).toInt := by
  have hop : fieldOp iw = 41#6 := BitVec.eq_of_toNat_eq h
  rw [decode, hop]
  rfl

theorem usesImm_iff : usesImm op = true ↔ op.toNat ∈ twoWordOpcodes := List.contains_iff_mem

/-! ## Decoding what was encoded -/

theorem usesImm_fieldOp_encodeWord (i : Instr) : usesImm (fieldOp (encodeWord i)) = i.immediate.isSome := by
  obtain ⟨hop, himm⟩ := Laws.Encoding.all i
  rw [hop, himm]

/-- The decoder gives a well-formed instruction back from its word, whatever follows a word that uses no immediate. -/
theorem decode_encodeWord (h : i.wellFormed = true) (himm : ∀ w ∈ i.immediate, w = imm) :
    decode (encodeWord i) imm = i := by
  cases i with
  | add | sub | and | or | xor | sll | srl | sra | ld | st => exact decode_wordOfFields ..
  | addi | andi | ori | xori | sfti | srai | ldio | stio | jal | beq | bne | blt | bge | bltu | bgeu =>
    obtain rfl := himm _ rfl
    exact decode_wordOfFields ..
  | jsh off =>
    obtain ⟨hlow, hhigh⟩ := wellFormed_jsh_iff.1 h
    have hoff : (BitVec.ofInt 10 off).toInt = off := by
      rw [BitVec.toInt_ofInt]
      exact Int.bmod_eq_of_le (by omega) (by omega)
    exact (decode_wordOfUpper ..).trans (congrArg Instr.jsh hoff)
  | _ => exact decode_wordOfUpper ..

/-- A stream's first instruction takes two words where its opcode uses the immediate (R55). -/
theorem decodeStream_two (h : usesImm (fieldOp iw) = true) (rest : List Word) :
    decodeStream (iw :: imm :: rest) = .ok (decode iw imm, rest) := by
  rw [decodeStream, if_pos h]

/-- And one word where it does not; the decoder is then given the next word, or 0x0000 at the end. -/
theorem decodeStream_one (h : ¬ usesImm (fieldOp iw) = true) (rest : List Word) :
    decodeStream (iw :: rest) = .ok (decode iw (rest.headD 0#16), rest) := by
  cases rest <;> rw [decodeStream, if_neg h] <;> rfl

/-- Settles O1: the opcode of the encoded word says whether an immediate follows, and the decoder gives the instruction back. -/
theorem decodeOfEncodeIsTheInstruction : Obligations.DecodeOfEncodeIsTheInstruction := by
  intro i rest h
  have huses := usesImm_fieldOp_encodeWord i
  cases himm : i.immediate with
  | none =>
    rw [himm] at huses
    rw [encode, himm, Option.toList_none, List.singleton_append, decodeStream_one (by simp [huses]),
      decode_encodeWord _ h (by simp [himm])]
  | some imm =>
    rw [himm] at huses
    rw [encode, himm, Option.toList_some, List.cons_append, List.singleton_append, decodeStream_two imm huses,
      decode_encodeWord imm h (by simp [himm])]

/-! ## The obligations on words and fields -/

/-- Settles O2: the map entry carries every field of the word. -/
theorem encodeOfDecodeIsTheWord : Obligations.EncodeOfDecodeIsTheWord := by
  refine fun iw imm => ⟨wellFormed_decodeFields .., encodeWord_decode iw imm, ?_⟩
  rw [decode, immediate_decodeFields]
  split
  · exact .inr rfl
  · exact .inl rfl

/-- The ten bits of a JSH offset as a number (R57). -/
theorem ofInt_offset_toNat (o : Int) : (BitVec.ofInt 10 o).toNat = (o % 1024).toNat := by
  rw [BitVec.toNat_ofInt]; rfl

theorem wordOfUpper_toNat : (wordOfUpper off op).toNat = off.toNat * 64 + op.toNat := by
  have h : wordOfUpper off op = off ++ op := rfl
  rw [h, BitVec.toNat_append, ← Nat.shiftLeft_add_eq_or_of_lt op.isLt, Nat.shiftLeft_eq]

/-- Settles O3: the encoded word of a decoded one is that word, and a word is the sum of its fields. -/
theorem instructionWordIsTheFieldSum : Obligations.InstructionWordIsTheFieldSum := by
  refine ⟨fun iw imm _ => ?_, fun o _ _ => ?_, fun i imm h => ?_, rfl, rfl⟩
  · rw [encodeWord_decode, opcode_decode, fieldS_toNat, fieldD_toNat, fieldOp_toNat]
    omega
  · have hword : encodeWord (.jsh o) = wordOfUpper (BitVec.ofInt 10 o) 41#6 := rfl
    rw [← ofInt_offset_toNat]
    refine congrArg (fun w => [w]) (BitVec.eq_of_toNat_eq ?_)
    have := (BitVec.ofInt 10 o).isLt
    rw [hword, wordOfUpper_toNat, BitVec.toNat_ofNat, BitVec.toNat_ofNat]
    omega
  · rw [encode, h, Option.toList_some]

/-- Settles O4: each field is extracted from the word. -/
theorem fieldsAreTheBitsOfTheWord : Obligations.FieldsAreTheBitsOfTheWord := by
  refine fun iw => ⟨fieldS_toNat iw, fieldD_toNat iw, fieldOp_toNat iw, ?_, fieldOff_msb iw,
    fun h imm => decode_of_fieldOp_jsh imm h⟩
  rw [fieldOff_toNat, fieldS_toNat, fieldD_toNat]
  omega

/-- Settles O5: the decoded opcode is the word's, and an instruction's opcode tells whether it has an immediate. -/
theorem lengthDependsOnTheOpcodeAlone : Obligations.LengthDependsOnTheOpcodeAlone := by
  refine ⟨fun iw imm => ?_, fun i => ?_⟩
  · rw [Instr.length, opcode_decode, ← fieldOp_toNat]
    simp only [usesImm_iff]
  · rw [encode, Instr.length, (Laws.Encoding.all i).2]
    cases i.immediate <;> rfl

/-- Settles O6: the opcode selects the entry. -/
theorem everyWordIsTheMapEntryOfItsOpcode : Obligations.EveryWordIsTheMapEntryOfItsOpcode := by
  refine fun iw imm => ⟨by rw [opcode_decode, fieldOp_toNat], ?_⟩
  rw [decode, isUnassigned_decodeFields, fieldOp_toNat, decide_eq_true_iff]

/-- Settles O7, by running the decoder on the eight words. -/
theorem wordsFromTheSpecDecode : Obligations.WordsFromTheSpecDecode := by
  unfold Obligations.WordsFromTheSpecDecode
  decide

/-- Settles O8: JSH's entry holds the signed value of OFF, and its target adds that value to the pc. -/
theorem shortJumpOffsetIsSignExtended : Obligations.ShortJumpOffsetIsSignExtended := by
  refine ⟨fun iw imm s h => ?_, fun _ => ⟨rfl, rfl, rfl⟩⟩
  obtain ⟨hlow, hhigh⟩ := offset_bounds (fieldOff iw)
  exact ⟨_, _, decode_of_fieldOp_jsh imm (by rw [fieldOp_toNat, h]), rfl, hlow, hhigh, rfl, rfl⟩

end Sys2Proof
end

section
/-!
PROOFS. The source form (30_encoding.md R62 to R65): each operand is read back as it was written, and a line is split where its
operands were joined.
-/

namespace Sys2Proof

variable {i : Instr}

/-! ## One operand -/

/-- How an operand is written (R63, R64). -/
def Operand.written : Operand → List Char
  | .reg i => showReg i
  | .num false w => showHex w
  | .num true w => '-' :: showHex w

theorem hexValue_hexChar : ∀ n : BitVec 4, hexValue (hexChar n) = some n := by decide

theorem hexChar_ne_comma : ∀ n : BitVec 4, hexChar n ≠ ',' := by decide

/-- A word is its four hexadecimal digits put together. -/
theorem append_nibbles (w : Word) :
    w.extractLsb' 12 4 ++ w.extractLsb' 8 4 ++ w.extractLsb' 4 4 ++ w.extractLsb' 0 4 = w := by
  rw [BitVec.extractLsb'_append_extractLsb'_eq_extractLsb' (show 12 = 8 + 4 from rfl),
    BitVec.extractLsb'_append_extractLsb'_eq_extractLsb' (show 8 = 4 + 4 from rfl),
    BitVec.extractLsb'_append_extractLsb'_eq_extractLsb' (show 4 = 0 + 4 from rfl), BitVec.extractLsb'_eq_self]

theorem operandNum_nibbles (negative : Bool) (w : Word) :
    operandNum negative (hexChar (w.extractLsb' 12 4)) (hexChar (w.extractLsb' 8 4)) (hexChar (w.extractLsb' 4 4))
      (hexChar (w.extractLsb' 0 4)) = some (.num negative w) := by
  simp [operandNum, hexValue_hexChar, append_nibbles]

theorem parseOperand_showReg : ∀ i : RegIdx, parseOperand (showReg i) = some (.reg i) := by decide

/-- An operand is read back as written. -/
theorem parseOperand_written : ∀ o : Operand, parseOperand o.written = some o
  | .reg i => parseOperand_showReg i
  | .num false w => operandNum_nibbles false w
  | .num true w => operandNum_nibbles true w

theorem comma_notMem_showReg : ∀ i : RegIdx, ',' ∉ showReg i := by decide

theorem comma_notMem_showHex (w : Word) : ',' ∉ showHex w := by
  simp [showHex, Ne.symm (hexChar_ne_comma _)]

theorem comma_notMem_written : ∀ o : Operand, ',' ∉ o.written
  | .reg i => comma_notMem_showReg i
  | .num false w => comma_notMem_showHex w
  | .num true w => by simp [Operand.written, comma_notMem_showHex w]

/-! ## One line -/

/-- The text up to the first comma stays together. -/
theorem splitOperands_append {o cs : List Char} {ps : List (List Char)} {p : List Char} (ho : ',' ∉ o)
    (h : splitOperands cs = p :: ps) : splitOperands (o ++ cs) = (o ++ p) :: ps := by
  induction o with
  | nil => exact h
  | cons c o ih =>
    obtain ⟨hc, ho⟩ : ',' ≠ c ∧ ',' ∉ o := by simpa using ho
    rw [List.cons_append, splitOperands, ih ho]
    · rfl
    · exact fun _ e => absurd e.symm hc

/-- A line of operands without commas is split into those operands. -/
theorem splitOperands_intercalate {o : List Char} {os : List (List Char)} (h : ∀ p ∈ o :: os, ',' ∉ p) :
    splitOperands (List.intercalate [',', ' '] (o :: os)) = o :: os := by
  induction os generalizing o with
  | nil => simpa using splitOperands_append (h o (by simp)) (cs := []) rfl
  | cons p os ih =>
    obtain ⟨ho, hos⟩ := List.forall_mem_cons.1 h
    rw [List.intercalate_cons_cons]
    have hsep (cs : List Char) : splitOperands ([',', ' '] ++ cs) = [] :: splitOperands cs := rfl
    rw [List.append_assoc, splitOperands_append ho (hsep _), ih hos, List.append_nil]

theorem mapM_parseOperand_written (os : List Operand) : (os.map Operand.written).mapM parseOperand = some os := by
  induction os with
  | nil => rfl
  | cons o os ih => simp [parseOperand_written, ih]

/-- A source line is assembled from its mnemonic and the operands it was written with. -/
theorem assemble_sourceLine {m : String} (o : Operand) (os : List Operand) (hm : ' ' ∉ m.toList) :
    assemble (sourceLine m ((o :: os).map Operand.written)) = assembleOperation m (o :: os) := by
  have hname : ∀ c ∈ m.toList, decide (c ≠ ' ') = true := fun c hc =>
    decide_eq_true fun e => hm (e ▸ hc)
  have hcomma : ∀ p ∈ o.written :: os.map Operand.written, ',' ∉ p := by simp [comma_notMem_written]
  have hmnemonic (cs : List Char) : (m.toList ++ ' ' :: cs).takeWhile (fun c => c ≠ ' ') = m.toList := by
    rw [List.takeWhile_append_of_pos hname]; simp
  have hoperands (cs : List Char) : (m.toList ++ ' ' :: cs).dropWhile (fun c => c ≠ ' ') = ' ' :: cs := by
    rw [List.dropWhile_append_of_pos hname]; simp
  rw [List.map_cons, assemble, sourceLine, hmnemonic, hoperands]
  simp only [splitOperands_intercalate hcomma, String.ofList_toList]
  rw [← List.map_cons, mapM_parseOperand_written]
  rfl

theorem assembleOperation_of_parseCore {m : String} {os : List Operand} (hm : m ≠ ".word") (h : parseCore m os = some i) :
    assembleOperation m os = some (encode i) := by
  rw [assembleOperation, h]
  · rfl
  · exact fun _ e => absurd e hm

/-- The line of an instruction of R54. -/
theorem assemble_of_parseCore {m : String} (o : Operand) (os : List Operand) (hm : ' ' ∉ m.toList ∧ m ≠ ".word")
    (h : parseCore m (o :: os) = some i) : assemble (sourceLine m ((o :: os).map Operand.written)) = some (encode i) :=
  (assemble_sourceLine o os hm.1).trans (assembleOperation_of_parseCore hm.2 h)

theorem source_eq_display (h : i.isUnassigned = false) : i.source = i.display := by simp [Instr.source, h]

/-! ## Signed operands -/

/-- A signed value is written as its sign and its magnitude (R64). -/
theorem showSigned_eq_written (n : Int) : showSigned n = (Operand.num (n < 0) (BitVec.ofNat 16 n.natAbs)).written := by
  by_cases h : n < 0
  · simp [showSigned, Operand.written, h]
  · simp [showSigned, Operand.written, h]

/-- A shift amount is read back from its sign and magnitude. -/
theorem amountWord_toInt (w : Word) : amountWord (w.toInt < 0) (BitVec.ofNat 16 w.toInt.natAbs) = some w := by
  have hw := w.isLt
  have hint := w.toInt_eq_toNat_cond
  have hmag : (BitVec.ofNat 16 w.toInt.natAbs).toNat = w.toInt.natAbs := by
    rw [BitVec.toNat_ofNat]; omega
  by_cases h : w.toInt < 0
  · have hle : w.toInt.natAbs ≤ 32768 := by omega
    rw [decide_eq_true h, amountWord, hmag, if_pos hle]
    refine congrArg some (BitVec.eq_of_toNat_eq ?_)
    rw [BitVec.toNat_neg, hmag]
    omega
  · rw [decide_eq_false h, amountWord]
    refine congrArg some (BitVec.eq_of_toNat_eq ?_)
    omega

/-- A JSH offset is read back from its sign and magnitude. -/
theorem offsetValue_natAbs {n : Int} (hlow : -512 ≤ n) (hhigh : n ≤ 511) :
    offsetValue (n < 0) (BitVec.ofNat 16 n.natAbs) = some n := by
  have hmag : (BitVec.ofNat 16 n.natAbs).toNat = n.natAbs := by
    rw [BitVec.toNat_ofNat]; omega
  have hvalue : (if decide (n < 0) = true then -(n.natAbs : Int) else n.natAbs) = n := by
    simp only [decide_eq_true_iff]; omega
  simp only [offsetValue, hmag, hvalue]
  exact if_pos ⟨hlow, hhigh⟩

/-! ## The obligation -/

/-- An unassigned instruction has no immediate (format U of R51). -/
theorem immediate_of_isUnassigned (h : i.isUnassigned = true) : i.immediate = none := by
  cases i with
  | addi | andi | ori | xori | sfti | srai | ldio | stio | jal | beq | bne | blt | bge | bltu | bgeu => cases h
  | _ => rfl

/-- Settles O9: each line is its mnemonic and its written operands, and its mnemonic names the instruction it was. -/
theorem sourceLineAssemblesToTheWords : Obligations.SourceLineAssemblesToTheWords := by
  intro i hi
  by_cases hu : i.isUnassigned = true
  · have hline : i.source = sourceLine ".word" [(Operand.num false (encodeWord i)).written] := by
      rw [Instr.source, if_pos hu]; rfl
    rw [hline, encode, immediate_of_isUnassigned hu]
    exact assemble_sourceLine (m := ".word") (.num false (encodeWord i)) [] (by decide)
  rw [source_eq_display (Bool.eq_false_of_not_eq_true hu)]
  cases i with
  | add rd rs | sub rd rs | and rd rs | or rd rs | xor rd rs | sll rd rs | srl rd rs | sra rd rs | ld rd rs | st rd rs =>
    exact assemble_of_parseCore (.reg rd) [.reg rs] (by decide) rfl
  | addi rd rs imm | andi rd rs imm | ori rd rs imm | xori rd rs imm | ldio rd rs imm | stio rd rs imm | jal rd rs imm
  | beq rd rs imm | bne rd rs imm | blt rd rs imm | bge rd rs imm | bltu rd rs imm | bgeu rd rs imm =>
    exact assemble_of_parseCore (.reg rd) [.reg rs, .num false imm] (by decide) rfl
  | sfti rd rs imm | srai rd rs imm =>
    rw [Instr.display, showSigned_eq_written]
    exact assemble_of_parseCore (.reg rd) [.reg rs, .num _ _] (by decide) (congrArg (Option.map _) (amountWord_toInt imm))
  | jsh off =>
    obtain ⟨hlow, hhigh⟩ := wellFormed_jsh_iff.1 hi
    rw [Instr.display, showSigned_eq_written]
    exact assemble_of_parseCore (.num _ _) [] (by decide) (congrArg (Option.map _) (offsetValue_natAbs hlow hhigh))
  | _ => exact absurd rfl hu

end Sys2Proof
end

section
/-!
PROOFS. An instruction with a target, a branch and a JSH in the words of the claims (`Writes`, `Jumps`); with them the encodings
without effect (30_encoding.md R59) and the pseudo-instructions (R68).
-/

namespace Sys2Proof.Machine

open Sys2Proof.Claims

variable {i : Instr} {s : State} {rd rs : RegIdx} {imm v p : Word}

/-! ## Instructions with a target -/

theorem target_of_isUnassigned (h : i.isUnassigned = true) : i.target = none := by
  cases i with
  | add | sub | and | or | xor | sll | srl | sra | addi | andi | ori | xori | sfti | srai | ld | st | ldio | stio | jal | jsh
  | beq | bne | blt | bge | bltu | bgeu => exact absurd h Bool.false_ne_true
  | _ => rfl

/-- An instruction with a target has a meaning under every parameter choice (R54). -/
theorem completes_of_target (ht : i.target = some rd) (c : Config) : i.Completes c := fun hu => by
  rw [target_of_isUnassigned hu] at ht
  cases ht

/-- No instruction has both a target and a store address (R18, R79). -/
theorem storeAddress_of_target (ht : i.target = some rd) : i.storeAddress s = none := by
  cases i with
  | st | stio => cases ht
  | _ => rfl

theorem effect_of_target (ht : i.target = some rd) : i.effect s = (s.setReg rd (i.result s)).finish (i.nextPc s) := by
  rw [Instr.effect, storeAddress_of_target ht, Instr.writeTarget, ht]

/-- An instruction with a target writes its result there and changes nothing else but the pc. -/
theorem writes_of_target (ht : i.target = some rd) (hv : i.result s = v) (hp : i.nextPc s = p) : Writes i s rd v p := by
  refine ⟨i.effect s, exec_eq_effect (completes_of_target ht s.cfg), ?_⟩
  rw [effect_of_target ht, hv, hp]
  exact s.setReg_finish_onlyRegister rd v p

/-- A write to r0 is discarded (R17): an instruction with the target r0 changes the pc alone. -/
theorem jumps_of_target_zero (ht : i.target = some 0#5) (hp : i.nextPc s = p) : Jumps i s p := by
  refine ⟨i.effect s, exec_eq_effect (completes_of_target ht s.cfg), ?_⟩
  rw [effect_of_target ht, State.setReg_zero, hp]
  exact s.finish_onlyPc p

/-- Of the instructions with a target only JAL may set the pc to other than the next instruction's address (R80). -/
theorem nextPc_of_target (ht : i.target = some rd)
    (hjal : ∀ rd rs imm, i = .jal rd rs imm → s.reg rs + imm = s.pc + 2#16) :
    i.nextPc s = s.pc + BitVec.ofNat 16 i.length := by
  cases i with
  | jal rd rs imm => exact hjal rd rs imm rfl
  | jsh | beq | bne | blt | bge | bltu | bgeu => cases ht
  | _ => rfl

/-! ## Jumps -/

/-- A branch is taken where its comparator's condition holds (R77, R80). -/
theorem jumps_of_branch (c : Cond) {P : Prop} [Decidable P] (hi : exec i s = s.branch c rd rs imm)
    (hP : c.holds (s.reg rd) (s.reg rs) = true ↔ P) : Jumps i s (if P then imm else s.pc + 2#16) := by
  rw [Jumps, hi]
  simpa only [hP] using s.branch_next rd rs imm c

/-- A branch to the next instruction goes there, taken or not. -/
theorem jumps_of_branch_next (c : Cond) (hi : exec i s = s.branch c rd rs (s.pc + 2#16)) : Jumps i s (s.pc + 2#16) := by
  simpa only [ite_self] using jumps_of_branch c hi Iff.rfl

/-! ## The obligations -/

/-- Settles O29: a write to r0 is discarded, and a branch to the next instruction goes there in both of its cases. -/
theorem encodingsWithoutEffect : Obligations.EncodingsWithoutEffect := by
  refine ⟨fun i s ht hjal => jumps_of_target_zero ht (nextPc_of_target ht hjal), fun rd rs s => ?_,
    fun s h => ⟨?_, jumps_of_target_zero rfl rfl⟩⟩
  · simp only [List.forall_mem_cons]
    exact ⟨jumps_of_branch_next .eq rfl, jumps_of_branch_next .ne rfl, jumps_of_branch_next .ltS rfl,
      jumps_of_branch_next .geS rfl, jumps_of_branch_next .ltU rfl, jumps_of_branch_next .geU rfl, fun _ h => nomatch h⟩
  · rw [step, State.fetch, h]
    rfl

/-- Settles O30: the expansions write to a target, write to r0, branch or jump by 0, in the order of the table of R68. -/
theorem pseudoInstructionsHaveTheirEffect : Obligations.PseudoInstructionsHaveTheirEffect := by
  refine fun a b w s => ⟨?nop, ?li, ?mov, ?clr, ?not, ?j, ?jr, ?call, ?ret, ?b, ?bgt, ?ble, ?bgtu, ?bleu, ?halt⟩
  case nop => exact ⟨_, rfl, jumps_of_target_zero rfl rfl⟩
  case li => exact ⟨_, rfl, writes_of_target rfl (BitVec.zero_add w) rfl⟩
  case mov => exact ⟨_, rfl, writes_of_target rfl (BitVec.add_zero _) rfl⟩
  case clr => exact ⟨_, rfl, writes_of_target rfl BitVec.xor_self rfl⟩
  case not => exact ⟨_, rfl, writes_of_target rfl BitVec.xor_allOnes rfl⟩
  case j => exact ⟨_, rfl, jumps_of_target_zero rfl (BitVec.zero_add w)⟩
  case jr => exact ⟨_, rfl, jumps_of_target_zero rfl (BitVec.add_zero _)⟩
  case call => exact ⟨_, rfl, writes_of_target rfl rfl (BitVec.zero_add w)⟩
  case ret => exact ⟨_, rfl, jumps_of_target_zero rfl (BitVec.add_zero _)⟩
  case b => exact ⟨_, rfl, s.branch_next 0#5 0#5 w .eq⟩
  case bgt => exact ⟨_, rfl, jumps_of_branch .ltS rfl decide_eq_true_iff⟩
  case ble => exact ⟨_, rfl, jumps_of_branch .geS rfl decide_eq_true_iff⟩
  case bgtu => exact ⟨_, rfl, jumps_of_branch .ltU rfl decide_eq_true_iff⟩
  case bleu => exact ⟨_, rfl, jumps_of_branch .geU rfl decide_eq_true_iff⟩
  case halt => exact ⟨_, rfl, _, rfl, (BitVec.add_zero s.pc) ▸ s.finish_onlyPc _⟩

end Sys2Proof.Machine
end

section
/-!
PROOFS. The step (40_step.md R69 to R82): it runs the instruction its words encode, it is total under `nop`, and the datapath of
R72 to R81 computes the same step.
-/

namespace Sys2Proof.Machine

open Sys2Proof.Claims

variable {s : State}

/-! ## The instruction a step runs -/

/-- Settles O10: the decoded instruction is the fetched one. -/
theorem stepRunsTheDecodedInstruction : Obligations.StepRunsTheDecodedInstruction := fun s _ hi _ =>
  congrArg (fun i => exec i s) hi

/-- Settles O11: the decoder gives the encoded instruction back. -/
theorem stepRunsTheEncodedInstruction : Obligations.StepRunsTheEncodedInstruction := by
  intro s i hwf hword himm
  refine stepRunsTheDecodedInstruction s i ?_ hwf
  rw [hword]
  exact decode_encodeWord _ hwf fun w hw => (himm w hw).symm

/-- The instruction word's cell is another than the immediate word's, so placing the one keeps the other. -/
theorem State.fetch_placeWords (nbits w : Nat) : decodeTableWord nbits w = some (s.placeWords nbits w).fetch := by
  have hpc : s.pc ≠ s.pc + 1#16 := by simp
  simp only [State.fetch, State.placeWords, State.memWrite_pc, State.memRead_memWrite, if_neg hpc, if_true]
  rfl

/-- Settles O12: the fetch finds the two words placed. -/
theorem placedWordsRunNext : Obligations.PlacedWordsRunNext := by
  intro s nbits w i hi
  rw [State.fetch_placeWords (s := s)] at hi
  cases hi
  rfl

/-- Settles O39: under `nop` every instruction has a meaning. -/
theorem stepIsTotalUnderNop : Obligations.StepIsTotalUnderNop := fun _ hnop => ⟨_, exec_eq_effect fun _ => hnop⟩

/-! ## The datapath -/

/-- The result multiplexer gives the fetched instruction's result, for the register D, where it has a target (R78). -/
theorem State.wbData_cases :
    (∃ v, s.wbData = some v ∧ s.fetch.target = some (fieldD (s.memRead s.pc)) ∧ s.fetch.result s = v) ∨
      s.wbData = none ∧ s.fetch.target = none := by
  simp only [State.wbData, State.controls, State.aluOut, State.dataRead, State.dataAddr, State.fetch, decode, State.latches]
  generalize fieldOp (s.memRead s.pc) = op
  obtain ⟨⟨n, hn⟩⟩ := op
  interval_cases n
  any_goals exact .inr ⟨rfl, rfl⟩
  all_goals exact .inl ⟨_, rfl, rfl, rfl⟩

theorem State.dataWrite_eq : s.dataWrite = (s.fetch.storeAddress s).map fun a => (a, s.fetch.storeData s) := by
  simp only [State.dataWrite, State.controls, State.aluOut, State.dataAddr, State.fetch, decode, State.latches]
  generalize fieldOp (s.memRead s.pc) = op
  obtain ⟨⟨n, hn⟩⟩ := op
  interval_cases n <;> rfl

/-- The comparator runs the function that R72 names for the opcode on the registers D and S (R77). -/
theorem State.cmpBit_of_controls {op : BitVec 6} {c : Cond} (hop : fieldOp (s.memRead s.pc) = op)
    (hc : (Machine.controls op).cmp = some c) :
    s.cmpBit = c.holds (s.reg (fieldD (s.memRead s.pc))) (s.reg (fieldS (s.memRead s.pc))) := by
  have hs : s.controls.cmp = some c := by rw [← hc, ← hop]; rfl
  rw [State.cmpBit, hs]
  rfl

/-- The next-pc multiplexer gives the fetched instruction's next pc (R80). -/
theorem State.npc_eq : s.npc = s.fetch.nextPc s := by
  simp only [State.npc, State.controls, State.aluOut, State.fetch, decode, State.latches]
  generalize hop : fieldOp (s.memRead s.pc) = op
  have hbranch (c : Cond) (hc : (Machine.controls op).cmp = some c) :=
    congrArg (fun b => if b then s.memRead (s.pc + 1#16) else s.pc + 2#16) (State.cmpBit_of_controls hop hc)
  obtain ⟨⟨n, hn⟩⟩ := op
  interval_cases n
  any_goals rfl
  -- What is left are the six branches, in the order of R54.
  · exact hbranch .eq rfl
  · exact hbranch .ne rfl
  · exact hbranch .ltS rfl
  · exact hbranch .geS rfl
  · exact hbranch .ltU rfl
  · exact hbranch .geU rfl

/-- The register write (R78), the store (R79) and the next pc (R80) of the datapath are those of the fetched instruction. -/
theorem State.writeBack_eq_effect : s.writeBack = s.fetch.effect s := by
  obtain ⟨v, hv, ht, hr⟩ | ⟨hv, ht⟩ := s.wbData_cases
  · simp only [State.writeBack, Instr.effect, Instr.writeTarget, State.npc_eq, State.dataWrite_eq, hv, ht, hr]
    cases s.fetch.storeAddress s <;> rfl
  · simp only [State.writeBack, Instr.effect, Instr.writeTarget, State.npc_eq, State.dataWrite_eq, hv, ht]
    cases s.fetch.storeAddress s <;> rfl

/-- R72 has no row of its own for an opcode exactly where the opcode is unassigned. -/
theorem assignedControls_eq_none_iff : ∀ op : BitVec 6, assignedControls op = none ↔ op.toNat ∈ unassignedOpcodes := by
  decide

theorem State.fetch_isUnassigned_iff : s.fetch.isUnassigned = true ↔ assignedControls (fieldOp s.latches.iw) = none := by
  rw [assignedControls_eq_none_iff, State.fetch, decode, isUnassigned_decodeFields, decide_eq_true_iff]
  rfl

/-- Settles O41: an unassigned opcode under `refuse` has a meaning in neither description, and elsewhere write-back leaves the
effect of the fetched instruction. -/
theorem datapathComputesTheStep : Obligations.DatapathComputesTheStep := by
  intro s
  simp only [datapathStep, ← State.fetch_isUnassigned_iff]
  split
  next h =>
    rw [step, exec_unassigned h.1, s.unassigned_refused _ h.2, State.fetch, opcode_decode]
    rfl
  next h =>
    have hcompletes : s.fetch.Completes s.cfg := fun hu => by
      cases hp : s.cfg.unassigned with
      | nop => rfl
      | refuse => exact absurd ⟨hu, hp⟩ h
    rw [State.writeBack_eq_effect]
    exact exec_eq_effect hcompletes

end Sys2Proof.Machine
end

section
/-!
PROOFS. The boundary (40_step.md R84 to R88): the host's operations one by one, runs of them, and several engines.
-/

namespace Sys2Proof.Machine

variable {s t : State} {o : BoundaryOp}

theorem BoundaryOp.apply_inv (hs : s.Inv) (h : o.apply s = .next t) : t.Inv := by
  cases o with
  | step => exact (stepKeepsTheInvariant s t h).1 hs
  | writeReg i v => cases h; exact s.setReg_inv i v hs
  | writeMem a v => cases h; exact s.memWrite_inv a v hs
  | readReg | readMem | readPc | writePc => cases h; exact hs

/-- Settles O37: every operation keeps the invariant, so every run does. -/
theorem boundaryRunsKeepTheInvariant : Obligations.BoundaryRunsKeepTheInvariant := fun _ _ _ =>
  runOps_keeps fun _ _ _ => BoundaryOp.apply_inv

/-! ## The host's operations -/

theorem State.ownFieldsStand_refl (s : State) : s.OwnFieldsStand s := ⟨rfl, fun _ => rfl⟩

theorem State.setReg_onlyRegister (s : State) (i : RegIdx) (v : Word) : s.OnlyRegister (s.setReg i v) i v s.pc :=
  ⟨s.setReg_pc i v, fun j => s.reg?_setReg i j v, fun a => s.cell?_setReg i a v, s.setReg_cfg i v, fun _ => s.setReg_draws i v⟩

theorem State.memWrite_onlyCell (s : State) (a v : Word) : s.OnlyCell (s.memWrite a v) a v s.pc :=
  ⟨rfl, fun _ => rfl, fun b => s.cell?_memWrite a b v, s.ownFieldsStand_refl⟩

theorem State.withPc_onlyPc (s : State) (p : Word) : s.OnlyPc { s with pc := p } p :=
  ⟨rfl, fun _ => rfl, fun _ => rfl, s.ownFieldsStand_refl⟩

/-- A register but r0 reads as what was written to it (R17). -/
theorem State.reg_setReg_self (s : State) (i : RegIdx) (v : Word) :
    (s.setReg i v).reg i = if i = 0#5 then 0x0000#16 else v := by
  split
  next h => rw [h, State.reg_zero]
  next h => exact State.reg_of_reg? _ i (by rw [State.reg?_setReg, if_pos ⟨rfl, h⟩])

/-- Settles O53: each write leaves its own register, cell or pc as written and nothing else changed; a read is a tick or
nothing. -/
theorem hostReadsWhatItWrote : Obligations.HostReadsWhatItWrote := by
  refine fun s i a v => ⟨⟨_, rfl, congrArg some (s.reg_setReg_self i v), s.setReg_onlyRegister i v⟩,
    ⟨_, rfl, congrArg some ?_, s.memWrite_onlyCell a v⟩, ⟨_, rfl, rfl, s.withPc_onlyPc v⟩, ?_⟩
  · rw [State.memRead_memWrite, if_pos rfl]
  · simp only [List.forall_mem_cons]
    exact ⟨⟨s.tick, rfl, s.finish_onlyPc s.pc⟩, ⟨s.tick, rfl, s.finish_onlyPc s.pc⟩, ⟨s, rfl, s.withPc_onlyPc s.pc⟩,
      fun _ h => nomatch h⟩

/-! ## Several engines -/

/-- Everything an operation on engine `k` can do: nothing where there is no such engine, else the engine's own operation,
its state put in the old one's place. -/
theorem applyAt_cases {k : Nat} {engines after : List State} (h : applyAt k o engines = .next after) :
    (engines[k]? = none ∧ after = engines) ∨
      ∃ s t, engines[k]? = some s ∧ o.apply s = .next t ∧ after = engines.set k t := by
  unfold applyAt at h
  split at h
  next hk => cases h; exact .inl ⟨hk, rfl⟩
  next s hk =>
    split at h
    next t ht => cases h; exact .inr ⟨s, t, hk, ht, rfl⟩
    next => cases h
    next => cases h

/-- Settles O57: the list changes at `k` alone, to what the operation leaves of the engine that stood there. -/
theorem enginesShareNoState : Obligations.EnginesShareNoState := by
  intro k o engines after h
  obtain ⟨hk, rfl⟩ | ⟨s, t, hk, ht, rfl⟩ := applyAt_cases h
  · exact ⟨fun _ _ => rfl, fun s hs => by rw [hk] at hs; cases hs⟩
  · refine ⟨fun j hj => List.getElem?_set_ne hj.symm, fun s' hs' => ⟨t, ?_, ?_⟩⟩
    · rw [hk] at hs'
      cases hs'
      exact ht
    · obtain ⟨hlt, -⟩ := List.getElem?_eq_some_iff.1 hk
      exact List.getElem?_set_self hlt

end Sys2Proof.Machine
end

section
/-!
PROOFS. Quiescent states (40_step.md R89): a step maps a state to itself exactly where its instruction leads back to the pc and
leaves its target as it was.
-/

namespace Sys2Proof.Machine

variable {i : Instr} {s t : State}

/-! ## Leading back to the pc -/

theorem State.pc_add_length_ne (s : State) (i : Instr) : s.pc + BitVec.ofNat 16 i.length ≠ s.pc := by
  unfold Instr.length
  split <;> simp

/-- A branch leads back to the pc exactly where it is taken and its immediate is the pc (R80). -/
theorem State.branchTarget_eq_pc_iff (c : Cond) (rd rs : RegIdx) (imm : Word) :
    s.branchTarget c rd rs imm = s.pc ↔ c.holds (s.reg rd) (s.reg rs) = true ∧ imm = s.pc := by
  unfold State.branchTarget
  split <;> simp [*]

/-- Within JSH's range only the offset 0 leads back to the pc (R53, R113). -/
theorem State.shortTarget_eq_pc_iff {off : Int} (hwf : (Instr.jsh off).wellFormed = true) :
    s.shortTarget off = s.pc ↔ off = 0 := by
  obtain ⟨hlow, hhigh⟩ := wellFormed_jsh_iff.1 hwf
  have hint : (BitVec.ofInt 16 off).toInt = off := by
    rw [BitVec.toInt_ofInt]
    exact Int.bmod_eq_of_le (by omega) (by omega)
  rw [State.shortTarget, add_eq_left, ← BitVec.toInt_inj, hint]
  rfl

theorem State.fetch_wellFormed (s : State) : s.fetch.wellFormed = true := wellFormed_decodeFields ..

/-- The three cases of R89 are those of an instruction that leads back to the pc and whose result its target holds already. -/
theorem State.loopsInPlace_iff : s.LoopsInPlace ↔
    s.fetch.nextPc s = s.pc ∧ ∀ rd, s.fetch.target = some rd → rd = 0#5 ∨ s.reg rd = s.fetch.result s := by
  have hwf := s.fetch_wellFormed
  unfold State.LoopsInPlace
  generalize s.fetch = i at hwf
  cases i with
  | jsh off => simp [Instr.nextPc, Instr.target, State.shortTarget_eq_pc_iff hwf]
  | beq | bne | blt | bge | bltu | bgeu =>
    simp [Instr.nextPc, Instr.target, State.branchTarget_eq_pc_iff, Cond.holds]
  | jal => simp [Instr.nextPc, Instr.target, Instr.result, State.eaOffset, State.link]
  | _ => exact ⟨False.elim, fun h => s.pc_add_length_ne _ h.1⟩

/-! ## A step in place -/

/-- Writing to a register what it holds changes nothing. -/
theorem State.setReg_of_reg? {j : RegIdx} {v : Word} (h : s.reg? j = some v) : s.setReg j v = s := by
  by_cases h0 : j = 0#5
  · rw [h0, State.setReg_zero]
  · by_cases hj : j ∈ s.unwritten
    · simp [State.reg?, h0, hj] at h
    · have hv : s.regs[j.toNat - 1]'(slot_lt j) = v := by simpa [State.reg?, h0, hj] using h
      have hfilter : s.unwritten.filter (fun k => k ≠ j) = s.unwritten :=
        List.filter_eq_self.2 fun k hk => decide_eq_true fun e => hj (e ▸ hk)
      rw [State.setReg, if_neg h0, hfilter, ← hv, Vector.set_getElem_self]

/-- Only an instruction with a meaning, and without a store, leads back to the pc. -/
theorem completes_of_nextPc_eq_pc (h : i.nextPc s = s.pc) : i.Completes s.cfg ∧ i.storeAddress s = none := by
  refine ⟨fun hu => ?_, Option.eq_none_iff_forall_ne_some.2 fun a ha => ?_⟩
  · have hpc := congrArg State.pc (effect_unassigned (s := s) hu)
    rw [effect_pc, h] at hpc
    simp at hpc
  · exact s.pc_add_length_ne i (by rw [← nextPc_of_storeAddress ha, h])

/-- Where every register holds a value, an instruction that loops in place only ends its step. -/
theorem State.step_of_loopsInPlace (hw : s.unwritten = []) (h : s.LoopsInPlace) : step s = .next (s.finish s.pc) := by
  obtain ⟨hpc, htarget⟩ := State.loopsInPlace_iff.1 h
  obtain ⟨hc, hstore⟩ := completes_of_nextPc_eq_pc hpc
  have hwrite : s.fetch.writeTarget s = s := by
    unfold Instr.writeTarget
    split
    next rd ht =>
      obtain rfl | hreg := htarget rd ht
      · exact s.setReg_zero _
      · obtain ⟨v, hv⟩ := Option.isSome_iff_exists.1 (s.reg?_isSome rd hw)
        rw [← hreg, s.reg_of_reg? rd hv]
        exact State.setReg_of_reg? hv
    next => rfl
  rw [step, exec_eq_effect hc, Instr.effect, hstore, hwrite, hpc]

/-- States that are the same but for the draw index hold the same in each register. -/
theorem State.sameButDraws_reg? (h : s.SameButDraws t) (j : RegIdx) : t.reg? j = s.reg? j := by
  have hreg? := congrArg (State.reg? · j) h
  exact hreg?

/-- A step that maps a state to itself loops in place. -/
theorem State.loopsInPlace_of_step (h : step s = .next t) (hst : s.SameButDraws t) : s.LoopsInPlace := by
  obtain ⟨-, rfl⟩ := step_next_iff.1 h
  refine State.loopsInPlace_iff.2 ⟨State.sameButDraws_pc s hst, fun rd ht => ?_⟩
  by_cases h0 : rd = 0#5
  · exact .inl h0
  · have hreg? := State.sameButDraws_reg? hst rd
    rw [effect_reg?, if_pos ⟨ht, h0⟩] at hreg?
    exact .inr (s.reg_of_reg? rd hreg?.symm)

theorem State.loopsInPlace_withDraws (hz : s.cfg.resetContents = .zero) (hw : s.unwritten = []) (n : Nat) :
    ({ s with draws := n } : State).LoopsInPlace ↔ s.LoopsInPlace := by
  simp only [State.LoopsInPlace, State.fetch_withDraws n hz, State.reg_withDraws n hw]

/-- The word of HALT is a JSH to itself (R68). -/
theorem State.step_of_halt (h : s.cell? s.pc = some 0x0029#16) : step s = .next (s.finish s.pc) := by
  have hfetch : s.fetch = .jsh 0 := by
    rw [State.fetch, s.memRead_of_cell? _ h]
    rfl
  have htarget : s.shortTarget 0 = s.pc := (State.shortTarget_eq_pc_iff rfl).2 rfl
  rw [step, hfetch]
  exact congrArg (fun p => Host.Outcome.next (s.finish p)) htarget

/-- A state is quiescent where at every draw index its step only ends, at the pc. -/
theorem State.quiescent_of_step
    (h : ∀ n, step { s with draws := n } = .next (({ s with draws := n } : State).finish s.pc)) : s.Quiescent :=
  fun n => ⟨_, h n, (s.sameButDraws_finish s.pc n).2 rfl⟩

/-- Settles O43: a quiescent state's own step shows that it loops in place, and an instruction that loops in place does so at
every draw index. -/
theorem quiescentExactlyWhereItLoopsInPlace : Obligations.QuiescentExactlyWhereItLoopsInPlace := by
  refine ⟨fun s ⟨_, hunwritten⟩ hz => ⟨fun hq => ?_, fun hl => State.quiescent_of_step fun n => ?_⟩,
    fun s h => State.quiescent_of_step fun n => State.step_of_halt h⟩
  · obtain ⟨t, ht, hst⟩ := hq s.draws
    exact State.loopsInPlace_of_step ht hst
  · have hw := hunwritten hz
    exact State.step_of_loopsInPlace (s := { s with draws := n }) hw ((State.loopsInPlace_withDraws hz hw n).2 hl)

end Sys2Proof.Machine
end

section
/-!
PROOFS. The register ALU family (41_register_alu.md R90 to R98): its one-word encoding, the shifter against the formulas of R74,
and what each instruction writes.
-/

namespace Sys2Proof

open Sys2Proof.Claims

/-- A word is the sum of its fields (R57). -/
theorem wordOfFields_eq_fieldSum (rs rd : RegIdx) (op : BitVec 6) :
    wordOfFields rs rd op = BitVec.ofNat 16 (rs.toNat * 2048 + rd.toNat * 64 + op.toNat) := by
  have hword : wordOfFields rs rd op = wordOfUpper (rs ++ rd) op := rfl
  have hoff : (rs ++ rd).toNat = rs.toNat * 32 + rd.toNat := by
    rw [BitVec.toNat_append, ← Nat.shiftLeft_add_eq_or_of_lt rd.isLt, Nat.shiftLeft_eq]
  refine BitVec.eq_of_toNat_eq ?_
  rw [BitVec.toNat_ofNat, hword, wordOfUpper_toNat, hoff]
  omega

theorem formatR_of_encode {i : Instr} {rd rs : RegIdx} (op : BitVec 6) (h : encode i = [wordOfFields rs rd op]) :
    FormatR i rd rs op.toNat := by
  rw [FormatR, h, wordOfFields_eq_fieldSum]

end Sys2Proof

namespace Sys2Proof.Machine

open Sys2Proof.Claims

variable {i : Instr} {s t : State} {rd rs : RegIdx} {v p : Word}

/-! ## The shifter -/

theorem shl_eq_leftBy : shl = leftBy := by
  funext v m
  refine BitVec.eq_of_toNat_eq ?_
  rw [shl, leftBy, BitVec.toNat_shiftLeft, BitVec.toNat_ofNat, Nat.shiftLeft_eq]

theorem lsr_eq_rightBy : lsr = rightBy := by
  funext v m
  have hlt : v.toNat / 2 ^ m < 2 ^ 16 := (Nat.div_le_self _ _).trans_lt v.isLt
  refine BitVec.eq_of_toNat_eq ?_
  rw [lsr, rightBy, BitVec.toNat_ushiftRight, BitVec.toNat_ofNat, Nat.shiftRight_eq_div_pow, Nat.mod_eq_of_lt hlt]

/-- The sign of the amount selects the direction, whatever its magnitude (R75). -/
theorem shiftSigned_eq_shiftBy (e : ShiftEnv) (fwd bwd : Word → Nat → Word) (v b : Word) :
    shiftSigned e fwd bwd v b = shiftBy e (if 0 < b.toInt then fwd else bwd) v b.toInt.natAbs := by
  rw [shiftSigned]
  split <;> rfl

/-- The bidirectional shifter is the claims' shift of its two directions, for every amount and every `SHIFT_OOR`. -/
theorem isShift_shiftSigned (e : ShiftEnv) (fwd bwd : Word → Nat → Word) (v b : Word) :
    IsShift e.oor fwd bwd v b (shiftSigned e fwd bwd v b) := by
  rw [shiftSigned_eq_shiftBy]
  refine ⟨fun hin => ?_, fun hout hfull => ?_, fun hout hmod => ?_⟩
  · rw [shiftBy, if_pos (by omega)]
  · rw [shiftBy, if_neg (by omega), hfull]
  · rw [shiftBy, if_neg (by omega), hmod]

theorem isShift_shlR (e : ShiftEnv) (v b : Word) : IsShift e.oor rightBy leftBy v b (shlR e v b) := by
  rw [← lsr_eq_rightBy, ← shl_eq_leftBy]
  exact isShift_shiftSigned e lsr shl v b

/-- Settles O15: SRL's result is the shifter's, right for a positive amount and left for the others. -/
theorem shiftRightLogicalBySignedAmount : Obligations.ShiftRightLogicalBySignedAmount := fun _ _ s =>
  ⟨formatR_of_encode 6#6 rfl, _, writes_of_target rfl rfl rfl, isShift_shlR s.shiftEnv _ _⟩

/-! ## ADD and SUB -/

/-- The registers after an instruction that writes `v` to `rd`. -/
theorem reg?_of_writes (hw : Writes i s rd v p) (h : exec i s = .next t) (j : RegIdx) :
    t.reg? j = if j = rd ∧ rd ≠ 0#5 then some v else s.reg? j := by
  obtain ⟨u, hu, -, hreg?, -⟩ := hw
  obtain rfl : u = t := Host.Outcome.next.inj (hu.symm.trans h)
  exact hreg? j

/-- Whatever is written to r0 is discarded (R17). -/
theorem writes_zero_of_jumps (h : Jumps i s p) : Writes i s 0#5 v p := by
  obtain ⟨t, ht, hpc, hreg?, hframe⟩ := h
  exact ⟨t, ht, hpc, fun j => by simp [hreg? j], hframe⟩

theorem writes_add : Writes (.add rd rs) s rd (s.reg rd + s.reg rs) (s.pc + 1#16) := writes_of_target rfl rfl rfl

theorem writes_sub : Writes (.sub rd rs) s rd (s.reg rd - s.reg rs) (s.pc + 1#16) := writes_of_target rfl rfl rfl

theorem sub_eq_ofInt (a b : Word) : a - b = BitVec.ofInt 16 (a.toNat - b.toNat) := by
  have hcast (c : Word) : BitVec.ofInt 16 c.toNat = c := by rw [BitVec.ofInt_natCast, BitVec.ofNat_toNat, BitVec.setWidth_eq]
  rw [sub_eq_iff_eq_add]
  calc a = BitVec.ofInt 16 (a.toNat - b.toNat + b.toNat) := by rw [Int.sub_add_cancel, hcast]
    _ = BitVec.ofInt 16 (a.toNat - b.toNat) + b := by rw [BitVec.ofInt_add, hcast]

/-- SUB after ADD writes the old value of the destination (R92): the source still holds what was added, or r0 discards the
write. -/
theorem writes_sub_after_add (h : exec (.add rd rs) s = .next t) (hs : (s.reg? rs).isSome) (hne : rs ≠ rd ∨ rd = 0#5) :
    Writes (.sub rd rs) t rd (s.reg rd) (t.pc + 1#16) := by
  by_cases h0 : rd = 0#5
  · subst h0
    exact writes_zero_of_jumps (jumps_of_target_zero rfl rfl)
  · obtain ⟨w, hw⟩ := Option.isSome_iff_exists.1 hs
    have hrs : rs ≠ rd := hne.resolve_right h0
    have hd : t.reg rd = s.reg rd + s.reg rs :=
      State.reg_of_reg? t rd (by rw [reg?_of_writes writes_add h, if_pos ⟨rfl, h0⟩])
    have hsrc : t.reg rs = s.reg rs := by
      rw [s.reg_of_reg? rs hw]
      exact State.reg_of_reg? t rs (by rw [reg?_of_writes writes_add h, if_neg fun e => hrs e.1, hw])
    have hresult : t.reg rd - t.reg rs = s.reg rd := by rw [hd, hsrc, BitVec.add_sub_cancel]
    exact hresult ▸ writes_sub

/-- Settles O34: SUB writes back what ADD replaced, or subtracts the doubled register from itself. -/
theorem addThenSubtractRestores : Obligations.AddThenSubtractRestores := by
  intro rd rs s t u hd hs hadd hsub
  refine ⟨fun hne j => ?_, fun he h0 => ?_⟩
  · rw [reg?_of_writes (writes_sub_after_add hadd hs hne) hsub, reg?_of_writes writes_add hadd]
    split
    next hj =>
      obtain ⟨w, hw⟩ := Option.isSome_iff_exists.1 hd
      rw [hj.1, s.reg_of_reg? rd hw, hw]
    next => rfl
  · rw [reg?_of_writes writes_sub hsub, if_pos ⟨rfl, h0⟩, he, BitVec.sub_self]

/-- Settles O13: the words of ADD and SUB are the sum and the difference taken mod 2^16. -/
theorem addAndSubtractWrap : Obligations.AddAndSubtractWrap := by
  refine fun rd rs s => ⟨formatR_of_encode 0#6 rfl, formatR_of_encode 1#6 rfl, ?_, ?_, fun t => writes_sub_after_add⟩
  · rw [← BitVec.add_def]
    exact writes_add
  · rw [← sub_eq_ofInt]
    exact writes_sub

/-! ## AND, OR and XOR -/

/-- Settles O14: each result is the bitwise operation on the two registers. -/
theorem registerLogicIsBitwise : Obligations.RegisterLogicIsBitwise := fun _ _ _ =>
  ⟨formatR_of_encode 2#6 rfl, formatR_of_encode 3#6 rfl, formatR_of_encode 4#6 rfl,
    ⟨_, writes_of_target rfl rfl rfl, fun _ => BitVec.getLsbD_and⟩,
    ⟨_, writes_of_target rfl rfl rfl, fun _ => BitVec.getLsbD_or⟩,
    ⟨_, writes_of_target rfl rfl rfl, fun _ => BitVec.getLsbD_xor⟩⟩

end Sys2Proof.Machine
end

section
/-!
PROOFS. The immediate ALU family (42_immediate_alu.md R99 to R105): its two-word encoding and what each instruction writes.
-/

namespace Sys2Proof

open Sys2Proof.Claims

theorem formatI_of_encode {i : Instr} {rd rs : RegIdx} {imm : Word} (op : BitVec 6)
    (h : encode i = [wordOfFields rs rd op, imm]) : FormatI i rd rs imm op.toNat := by
  rw [FormatI, h, wordOfFields_eq_fieldSum]

end Sys2Proof

namespace Sys2Proof.Machine

open Sys2Proof.Claims

/-- Settles O17: ADDI's result is the sum of the two words, which wraps. -/
theorem addImmediateWraps : Obligations.AddImmediateWraps := by
  refine fun rd rs imm s => ⟨formatI_of_encode 8#6 rfl, ?_⟩
  rw [← BitVec.add_def]
  exact writes_of_target rfl rfl rfl

/-- Settles O18: each result is the bitwise operation on the source register and the immediate as it stands. -/
theorem immediateLogicIsBitwise : Obligations.ImmediateLogicIsBitwise := fun _ _ _ _ =>
  ⟨formatI_of_encode 10#6 rfl, formatI_of_encode 11#6 rfl, formatI_of_encode 12#6 rfl,
    ⟨_, writes_of_target rfl rfl rfl, fun _ => BitVec.getLsbD_and⟩,
    ⟨_, writes_of_target rfl rfl rfl, fun _ => BitVec.getLsbD_or⟩,
    ⟨_, writes_of_target rfl rfl rfl, fun _ => BitVec.getLsbD_xor⟩⟩

end Sys2Proof.Machine
end

section
/-!
PROOFS. The load and store family (43_load_store.md R106 to R110): a load is an instruction with a target, a store one with a
store address.
-/

namespace Sys2Proof.Machine

open Sys2Proof.Claims

/-- An instruction with a store address stores its word there and changes nothing else but the pc, which goes to the next
instruction (R79, R80). -/
theorem stores_of_storeAddress {i : Instr} {s : State} {a : Word} (ha : i.storeAddress s = some a) :
    Stores i s a (i.storeData s) (s.pc + BitVec.ofNat 16 i.length) := by
  cases i with
  | st | stio =>
    cases ha
    exact ⟨_, rfl, s.memWrite_finish_onlyCell _ _ _⟩
  | _ => cases ha

/-- Settles O20: each load's result is the word at its effective address, and the sum of base and offset wraps. -/
theorem loadsReadOneWord : Obligations.LoadsReadOneWord := by
  refine fun rd rs imm s => ⟨formatR_of_encode 16#6 rfl, formatI_of_encode 24#6 rfl, writes_of_target rfl rfl rfl, ?_⟩
  rw [← BitVec.add_def]
  exact writes_of_target rfl rfl rfl

/-- Settles O21: each store's address is its effective address, and the sum of base and offset wraps. -/
theorem storesWriteOneWord : Obligations.StoresWriteOneWord := by
  refine fun rd rs imm s => ⟨formatR_of_encode 17#6 rfl, formatI_of_encode 25#6 rfl, stores_of_storeAddress rfl, ?_⟩
  rw [← BitVec.add_def]
  exact stores_of_storeAddress rfl

end Sys2Proof.Machine
end

section
/-!
PROOFS. The control transfer family (44_control.md R111 to R119): JSH and the conditional branches, and that the branches of a
pair split every case.
-/

namespace Sys2Proof.Machine

open Sys2Proof.Claims

variable {i i' : Instr} {s : State} {imm p : Word}

/-! ## JSH -/

/-- JSH's target is the sum in the integers, mod 2^16 (R113). -/
theorem State.shortTarget_eq_ofInt (s : State) (off : Int) : s.shortTarget off = BitVec.ofInt 16 (s.pc.toNat + off) := by
  rw [State.shortTarget, BitVec.ofInt_add, BitVec.ofInt_natCast, BitVec.ofNat_toNat, BitVec.setWidth_eq]

/-- JSH sets the pc alone, to its target (R113). -/
theorem jumps_jsh (off : Int) : Jumps (.jsh off) s (s.shortTarget off) := ⟨_, rfl, s.finish_onlyPc _⟩

/-- Settles O23: the opcode selects JSH, its word is the field sum (O3), and its target is the sum with its own address. -/
theorem shortJumpIsRelativeToItself : Obligations.ShortJumpIsRelativeToItself := by
  obtain ⟨-, hword, -⟩ := instructionWordIsTheFieldSum
  refine ⟨fun iw imm h => ⟨_, decode_of_fieldOp_jsh imm (by rw [fieldOp_toNat, h]), rfl⟩, hword, fun off s => ?_⟩
  rw [← State.shortTarget_eq_ofInt]
  exact jumps_jsh off

/-! ## The conditional branches -/

/-- Settles O24: the comparator's bits for equal and not equal. -/
theorem equalityBranches : Obligations.EqualityBranches := fun _ _ _ _ =>
  ⟨formatI_of_encode 42#6 rfl, formatI_of_encode 43#6 rfl, jumps_of_branch .eq rfl decide_eq_true_iff,
    jumps_of_branch .ne rfl decide_eq_true_iff⟩

/-- Settles O25: the comparator's bits for the signed values. -/
theorem signedBranches : Obligations.SignedBranches := fun _ _ _ _ =>
  ⟨formatI_of_encode 44#6 rfl, formatI_of_encode 45#6 rfl, jumps_of_branch .ltS rfl decide_eq_true_iff,
    jumps_of_branch .geS rfl decide_eq_true_iff⟩

/-- Settles O26: the comparator's bits for the unsigned values. -/
theorem unsignedBranches : Obligations.UnsignedBranches := fun _ _ _ _ =>
  ⟨formatI_of_encode 46#6 rfl, formatI_of_encode 47#6 rfl, jumps_of_branch .ltU rfl decide_eq_true_iff,
    jumps_of_branch .geU rfl decide_eq_true_iff⟩

/-- Of two branches on opposite conditions exactly one is taken. -/
theorem jumps_split_of_opposite {P Q : Prop} [Decidable P] [Decidable Q] (hopp : Q ↔ ¬ P)
    (h : Jumps i s (if P then imm else p)) (h' : Jumps i' s (if Q then imm else p)) :
    (Jumps i s imm ∧ Jumps i' s p) ∨ (Jumps i s p ∧ Jumps i' s imm) := by
  by_cases hP : P
  · rw [if_pos hP] at h
    rw [if_neg fun hQ => hopp.1 hQ hP] at h'
    exact .inl ⟨h, h'⟩
  · rw [if_neg hP] at h
    rw [if_pos (hopp.2 hP)] at h'
    exact .inr ⟨h, h'⟩

/-- Settles O33: the conditions of each pair, as O24 to O26 give them, are each other's negation. -/
theorem oppositeBranchesSplitEveryCase : Obligations.OppositeBranchesSplitEveryCase := by
  intro rd rs imm s
  obtain ⟨-, -, hbeq, hbne⟩ := equalityBranches rd rs imm s
  obtain ⟨-, -, hblt, hbge⟩ := signedBranches rd rs imm s
  obtain ⟨-, -, hbltu, hbgeu⟩ := unsignedBranches rd rs imm s
  simp only [List.forall_mem_cons]
  exact ⟨jumps_split_of_opposite Iff.rfl hbeq hbne, jumps_split_of_opposite not_lt.symm hblt hbge,
    jumps_split_of_opposite not_lt.symm hbltu hbgeu, fun _ h => nomatch h⟩

end Sys2Proof.Machine
end

section
/-!
PROOFS. The steps that do not complete (45_unassigned.md R121; 60_exceptions.md R122): a refusal has one cause, and there is no
fault.
-/

namespace Sys2Proof.Machine

open Sys2Proof.Claims

variable {i : Instr} {s : State} {r : Refusal}

/-- The instructions that do not complete are the unassigned ones, where the parameters refuse them (R121). -/
theorem not_completes_iff {c : Config} : ¬ i.Completes c ↔ c.unassigned = .refuse ∧ i.isUnassigned = true := by
  have hpolicy : ¬ c.unassigned = .nop ↔ c.unassigned = .refuse := by cases c.unassigned <;> decide
  rw [Instr.Completes, Classical.not_imp, hpolicy, and_comm]

/-- An instruction that completes is not refused, and any other is refused for its own opcode. -/
theorem exec_refused_iff :
    exec i s = .refused r ↔ ¬ i.Completes s.cfg ∧ r = .unassignedOpcode i.opcode := by
  by_cases hc : i.Completes s.cfg
  · simp [exec_eq_effect hc, hc]
  · obtain ⟨hrefuse, hu⟩ := not_completes_iff.1 hc
    simp [exec_unassigned hu, s.unassigned_refused _ hrefuse, hc, eq_comm]

/-- Settles O40: the fetched instruction is refused where it does not complete, and the fetched word's opcode says whether it is
unassigned; a fault has no constructor (R122). -/
theorem stepIsRefusedExactlyOnUnassigned : Obligations.StepIsRefusedExactlyOnUnassigned := by
  refine fun s => ⟨fun r => ?_, fun f => nomatch f⟩
  obtain ⟨-, hunassigned⟩ := everyWordIsTheMapEntryOfItsOpcode (s.memRead s.pc) (s.memRead (s.pc + 1#16))
  rw [step, exec_refused_iff, not_completes_iff, State.fetch, opcode_decode, hunassigned, and_assoc]

end Sys2Proof.Machine
end

section
/-!
PROOFS. What the outside writes before the first step (70_reset_and_hazards.md R137, R138): a boot is one write of memory, one
of registers and one of the pc, and no two of the three see each other.
-/

namespace Sys2Proof.Machine

/-- Every word of the image written to memory, in the list's order. -/
def State.writeCells (s : State) (image : List (Word × Word)) : State := image.foldl (fun t c => t.memWrite c.1 c.2) s

/-- Every value written to its register, in the list's order. -/
def State.writeRegs (s : State) (regs : List (RegIdx × Word)) : State := regs.foldl (fun t r => t.setReg r.1 r.2) s

/-- The pc set to the entry, where one is given. -/
def State.startAt (s : State) (entry : Option Word) : State := { s with pc := entry.getD s.pc }

variable {s : State} {os : List BoundaryOp} {image : List (Word × Word)} {regs : List (RegIdx × Word)} {entry : Option Word}

/-! ## The host's operations as the three writes -/

theorem runOps_writeMem_append :
    runOps (image.map (fun c => .writeMem c.1 c.2) ++ os) s = runOps os (s.writeCells image) := by
  induction image generalizing s with
  | nil => rfl
  | cons c image ih => exact ih

theorem runOps_writeReg_append :
    runOps (regs.map (fun r => .writeReg r.1 r.2) ++ os) s = runOps os (s.writeRegs regs) := by
  induction regs generalizing s with
  | nil => rfl
  | cons r regs ih => exact ih

theorem runOps_writePc_append :
    runOps ((entry.map BoundaryOp.writePc).toList ++ os) s = runOps os (s.startAt entry) := by
  cases entry <;> rfl

theorem runOps_bootOps :
    runOps (bootOps image regs entry) s = .next (((s.writeCells image).writeRegs regs).startAt entry) := by
  rw [bootOps, List.append_assoc, runOps_writeMem_append, runOps_writeReg_append,
    ← List.append_nil (Option.toList _), runOps_writePc_append, runOps]

/-! ## The three writes commute -/

theorem State.setReg_memWrite (i : RegIdx) (a v w : Word) : (s.memWrite a w).setReg i v = (s.setReg i v).memWrite a w := by
  unfold State.setReg; split <;> rfl

theorem State.setReg_startAt (i : RegIdx) (v : Word) : (s.startAt entry).setReg i v = (s.setReg i v).startAt entry := by
  unfold State.setReg; split <;> rfl

theorem State.writeCells_startAt : (s.startAt entry).writeCells image = (s.writeCells image).startAt entry :=
  List.foldl_hom (State.startAt · entry) fun _ _ => rfl

theorem State.writeRegs_startAt : (s.startAt entry).writeRegs regs = (s.writeRegs regs).startAt entry :=
  List.foldl_hom (State.startAt · entry) fun _ r => State.setReg_startAt r.1 r.2

theorem State.writeCells_setReg (i : RegIdx) (v : Word) :
    (s.setReg i v).writeCells image = (s.writeCells image).setReg i v :=
  List.foldl_hom (State.setReg · i v) fun _ c => (State.setReg_memWrite i c.1 v c.2).symm

theorem State.writeRegs_writeCells : (s.writeCells image).writeRegs regs = (s.writeRegs regs).writeCells image :=
  List.foldl_hom (State.writeCells · image) fun _ r => (State.writeCells_setReg r.1 r.2).symm

/-- Settles O54: either order leaves the three writes, and they commute. -/
theorem bootOrderDoesNotMatter : Obligations.BootOrderDoesNotMatter := by
  intro image regs entry s
  rw [runOps_bootOps, List.append_assoc, runOps_writePc_append, runOps_writeReg_append,
    ← List.append_nil (image.map _), runOps_writeMem_append, runOps, State.writeRegs_startAt, State.writeCells_startAt,
    State.writeRegs_writeCells]

/-! ## What a boot leaves -/

@[simp] theorem State.startAt_pc : (s.startAt entry).pc = entry.getD s.pc := rfl
@[simp] theorem State.cell?_startAt (a : Word) : (s.startAt entry).cell? a = s.cell? a := rfl

@[simp] theorem State.writeCells_pc : (s.writeCells image).pc = s.pc :=
  List.foldlRecOn (motive := fun t : State => t.pc = s.pc) image _ rfl fun _ ht _ _ => ht

@[simp] theorem State.writeRegs_pc : (s.writeRegs regs).pc = s.pc :=
  List.foldlRecOn (motive := fun t : State => t.pc = s.pc) regs _ rfl fun t ht r _ => (t.setReg_pc r.1 r.2).trans ht

@[simp] theorem State.cell?_writeRegs (a : Word) : (s.writeRegs regs).cell? a = s.cell? a :=
  List.foldlRecOn (motive := fun t : State => t.cell? a = s.cell? a) regs _ rfl fun t ht r _ =>
    (t.cell?_setReg r.1 a r.2).trans ht

theorem State.cell?_writeCells_of_notMem {a : Word} (ha : a ∉ image.map Prod.fst) :
    (s.writeCells image).cell? a = s.cell? a := by
  refine List.foldlRecOn (motive := fun t : State => t.cell? a = s.cell? a) image _ rfl fun t ht c hc => ?_
  have hne : a ≠ c.1 := fun e => ha (e ▸ List.mem_map_of_mem hc)
  rw [State.cell?_memWrite, if_neg hne, ht]

/-- Where no address is named twice no word of the image is written over. -/
theorem State.cell?_writeCells_of_mem (hnodup : (image.map Prod.fst).Nodup) {c : Word × Word} (hc : c ∈ image) :
    (s.writeCells image).cell? c.1 = some c.2 := by
  induction image generalizing s with
  | nil => cases hc
  | cons d image ih =>
    obtain ⟨hd, hnodup⟩ := List.nodup_cons.1 hnodup
    rcases List.mem_cons.1 hc with rfl | hc
    · have hlater := State.cell?_writeCells_of_notMem (s := s.memWrite c.1 c.2) hd
      rw [State.cell?_memWrite, if_pos rfl] at hlater
      exact hlater
    · exact ih hnodup hc

/-- Settles O55: of the three writes only the first changes cells, and only the last the pc. -/
theorem bootPlacesTheImage : Obligations.BootPlacesTheImage := by
  refine fun c image regs entry hnodup => ⟨_, runOps_bootOps, fun w hw => ?_, fun a ha => ?_, ?_⟩
  · apply State.memRead_of_cell?
    simp [State.cell?_writeCells_of_mem hnodup hw]
  · simp [State.cell?_writeCells_of_notMem ha]
  · simp [State.resetWith]

end Sys2Proof.Machine
end

section
/-!
PROOFS. The bidirectional shifter (40_step.md R74 to R76) against the arithmetic formulas of the claims: the instructions SLL, SRA
(41_register_alu.md R96, R98), SFTI and SRAI (42_immediate_alu.md R104, R105), the amounts of 16 or more, and the symmetry in
the sign of the amount.
-/

namespace Sys2Proof.Machine

open Sys2Proof.Claims

variable {m : Nat}

/-! ## The shifter against the formulas -/

theorem asr_eq_signedRightBy : asr = signedRightBy := by
  funext v m
  have hdiv : v.toInt >>> m = v.toInt / 2 ^ m := mod_cast Int.shiftRight_eq_div_pow v.toInt m
  rw [signedRightBy, ← hdiv, ← BitVec.toInt_sshiftRight, BitVec.ofInt_toInt, asr]

theorem isShift_shlL (e : ShiftEnv) (v b : Word) : IsShift e.oor leftBy rightBy v b (shlL e v b) := by
  rw [← shl_eq_leftBy, ← lsr_eq_rightBy]
  exact isShift_shiftSigned e shl lsr v b

theorem isShift_shlA (e : ShiftEnv) (v b : Word) : IsShift e.oor signedRightBy leftBy v b (shlA e v b) := by
  rw [← asr_eq_signedRightBy, ← shl_eq_leftBy]
  exact isShift_shiftSigned e asr shl v b

/-! ## The shift instructions -/

/-- Settles O16: each result is the shifter's, in its own direction for a positive amount and reversed for the others. -/
theorem shiftLeftAndArithmeticBySignedAmount : Obligations.ShiftLeftAndArithmeticBySignedAmount := fun _ _ s =>
  ⟨formatR_of_encode 5#6 rfl, formatR_of_encode 7#6 rfl,
    ⟨_, writes_of_target rfl rfl rfl, isShift_shlL s.shiftEnv _ _⟩,
    ⟨_, writes_of_target rfl rfl rfl, isShift_shlA s.shiftEnv _ _⟩⟩

/-- Settles O19: the same shifter, the immediate its amount. -/
theorem immediateShiftsBySignedAmount : Obligations.ImmediateShiftsBySignedAmount := fun _ _ _ s =>
  ⟨formatI_of_encode 13#6 rfl, formatI_of_encode 15#6 rfl,
    ⟨_, writes_of_target rfl rfl rfl, isShift_shlL s.shiftEnv _ _⟩,
    ⟨_, writes_of_target rfl rfl rfl, isShift_shlA s.shiftEnv _ _⟩⟩

/-! ## Amounts of 16 or more -/

/-- A left shift by the width or more leaves nothing of the word. -/
theorem leftBy_of_le (v : Word) (hm : 16 ≤ m) : leftBy v m = 0x0000#16 := by
  rw [← shl_eq_leftBy]
  exact BitVec.shiftLeft_eq_zero hm

/-- A logical right shift by the width or more leaves nothing of the word. -/
theorem rightBy_of_le (v : Word) (hm : 16 ≤ m) : rightBy v m = 0x0000#16 := by
  rw [← lsr_eq_rightBy]
  exact BitVec.ushiftRight_eq_zero hm

/-- An arithmetic right shift by the width or more leaves copies of the sign bit. -/
theorem signedRightBy_of_le (v : Word) (hm : 16 ≤ m) :
    signedRightBy v m = if v.msb = true then 0xFFFF#16 else 0x0000#16 := by
  rw [← asr_eq_signedRightBy, asr]
  split
  next hneg => rw [BitVec.sshiftRight_eq_of_msb_true hneg, BitVec.ushiftRight_eq_zero hm]; rfl
  next hpos => rw [BitVec.sshiftRight_eq_of_msb_false (Bool.eq_false_of_not_eq_true hpos), BitVec.ushiftRight_eq_zero hm]

/-- Settles O31: under `full` a formula of R74 leaves zeros or copies of the sign bit; `mod16` and `any` are the shifter's own
cases. -/
theorem outOfRangeShifts : Obligations.OutOfRangeShifts := by
  intro e v b hout
  obtain ⟨-, hfullL, hmodL⟩ := isShift_shlL e v b
  obtain ⟨-, hfullR, hmodR⟩ := isShift_shlR e v b
  obtain ⟨-, hfullA, hmodA⟩ := isShift_shlA e v b
  refine ⟨fun hfull => ?_, fun hmod => ⟨hmodL hout hmod, hmodR hout hmod, hmodA hout hmod⟩, fun hany =>
    ⟨shiftSigned_any shl lsr v hany hout, shiftSigned_any lsr shl v hany hout, shiftSigned_any asr shl v hany hout⟩⟩
  rw [hfullL hout hfull, hfullR hout hfull, hfullA hout hfull]
  by_cases hb : 0 < b.toInt
  · simp [hb, leftBy_of_le v hout, rightBy_of_le v hout, signedRightBy_of_le v hout]
  · simp [hb, leftBy_of_le v hout, rightBy_of_le v hout]

/-! ## The negated amount -/

/-- Negating the amount exchanges the two directions, where the negation is in range and the two agree on no shift at all. -/
theorem shiftSigned_neg (e : ShiftEnv) (fwd bwd : Word → Nat → Word) (v : Word) {b : Word} (hzero : fwd v 0 = bwd v 0)
    (hb : b ≠ 0x8000#16) : shiftSigned e fwd bwd v b = shiftSigned e bwd fwd v (-b) := by
  have hneg : (-b).toInt = -b.toInt := BitVec.toInt_neg_of_ne_intMin hb
  simp only [shiftSigned, hneg, Int.natAbs_neg]
  rcases lt_trichotomy b.toInt 0 with hlt | heq | hgt
  · rw [if_neg (by omega), if_pos (by omega)]
  · simp [heq, shiftBy, hzero]
  · rw [if_pos hgt, if_neg (by omega)]

/-- Settles O32: the negation of an amount from 0 to 15 is in range, and a shift by 0 is the word itself in both directions. -/
theorem shiftDirectionSymmetry : Obligations.ShiftDirectionSymmetry := by
  have hsymm (e : ShiftEnv) (v b : Word) (hb : b ≠ 0x8000#16) : shlL e v b = shlR e v (-b) :=
    shiftSigned_neg e shl lsr v (BitVec.shiftLeft_zero v) hb
  exact ⟨fun e v k hk => hsymm e v _ (by bv_omega), hsymm⟩

end Sys2Proof.Machine
end

section
/-!
PROOFS. The instructions with one rule of their own: JAL (44_control.md R112) and the 38 unassigned opcodes
(45_unassigned.md R120, R121).
-/

namespace Sys2Proof.Machine

open Sys2Proof.Claims

/-- Settles O22: the result is the link and the next pc the effective address, both read before the write and both wrapping. -/
theorem jumpAndLink : Obligations.JumpAndLink := fun _ _ _ _ =>
  ⟨formatI_of_encode 40#6 rfl, writes_of_target rfl (BitVec.add_def _ _) (BitVec.add_def _ _)⟩

/-- Settles O27: all of them run the one shared behaviour, which under `nop` sets the pc alone. -/
theorem unassignedOpcodesAreNoOps : Obligations.UnassignedOpcodesAreNoOps := by
  intro i s hu hnop
  rw [Jumps, exec_unassigned hu]
  exact s.unassigned_next i.opcode hnop

/-- Settles O28: all of them run the one shared behaviour, which `refuse` refuses for their own opcode; and the fetched word's
opcode says whether the step fetches one. -/
theorem unassignedOpcodesAreRefused : Obligations.UnassignedOpcodesAreRefused := by
  have hexec (i : Instr) (s : State) (hu : i.isUnassigned = true) (hrefuse : s.cfg.unassigned = .refuse) :
      exec i s = .refused (.unassignedOpcode i.opcode) :=
    (exec_unassigned hu).trans (s.unassigned_refused i.opcode hrefuse)
  refine ⟨hexec, fun s hword hrefuse => ?_⟩
  obtain ⟨-, hunassigned⟩ := everyWordIsTheMapEntryOfItsOpcode (s.memRead s.pc) (s.memRead (s.pc + 1#16))
  rw [step, hexec s.fetch s (hunassigned.2 hword) hrefuse, State.fetch, opcode_decode]

end Sys2Proof.Machine
end
